-- ==== Sys2Proof/Word.lean ====
section
/-! DEFINITION. The plain vocabulary of the CB-8: octets, axis channels and axis sets, masters, and the
fixed tables with one entry per axis or per master. -/

namespace Sys2Proof

/-- One octet of a master link (R157). -/
abbrev Octet := BitVec 8

/-- The eight axis channels, in channel order (00_scope.md section 4). -/
inductive Axis where
  | track | swing | lift | tele | pan | tilt | roll | zoom
  deriving DecidableEq, Repr

/-- The fixed channel number 0 to 7 of an axis. -/
def Axis.number : Axis → Nat
  | .track => 0 | .swing => 1 | .lift => 2 | .tele => 3
  | .pan => 4 | .tilt => 5 | .roll => 6 | .zoom => 7

/-- The axis of a channel number, absent outside 0 to 7. -/
def Axis.ofNumber? : Nat → Option Axis
  | 0 => some .track | 1 => some .swing | 2 => some .lift | 3 => some .tele
  | 4 => some .pan | 5 => some .tilt | 6 => some .roll | 7 => some .zoom
  | _ => none

/-- Every axis, in channel order. -/
def Axis.all : List Axis := [.track, .swing, .lift, .tele, .pan, .tilt, .roll, .zoom]

/-- An axis set as the links carry it: bit a is set for channel a (11.7.2). -/
abbrev AxisSet := BitVec 8

/-- Membership of an axis in an axis set. -/
def AxisSet.has (x : AxisSet) (a : Axis) : Bool := x.getLsbD a.number

/-- The axis set of one axis. -/
def Axis.alone : Axis → AxisSet
  | .track => 1#8 | .swing => 2#8 | .lift => 4#8 | .tele => 8#8
  | .pan => 16#8 | .tilt => 32#8 | .roll => 64#8 | .zoom => 128#8

/-- The set of all eight channels. -/
def AxisSet.full : AxisSet := 255#8

/-- The named axes in channel order. -/
def AxisSet.members (x : AxisSet) : List Axis := Axis.all.filter (AxisSet.has x)

/-- The axis set of one axis when a test holds, else empty. -/
def Axis.aloneIf (a : Axis) (b : Bool) : AxisSet := if b then a.alone else 0#8

/-- The set of the axes that satisfy a test. -/
def AxisSet.ofTest (p : Axis → Bool) : AxisSet :=
  Axis.track.aloneIf (p .track) ||| Axis.swing.aloneIf (p .swing) ||| Axis.lift.aloneIf (p .lift) |||
  Axis.tele.aloneIf (p .tele) ||| Axis.pan.aloneIf (p .pan) ||| Axis.tilt.aloneIf (p .tilt) |||
  Axis.roll.aloneIf (p .roll) ||| Axis.zoom.aloneIf (p .zoom)

/-- One entry per axis channel. -/
structure PerAxis (α : Type) where
  track : α
  swing : α
  lift : α
  tele : α
  pan : α
  tilt : α
  roll : α
  zoom : α
  deriving DecidableEq, Repr

/-- The entry of one axis. -/
def PerAxis.get {α : Type} (t : PerAxis α) : Axis → α
  | .track => t.track | .swing => t.swing | .lift => t.lift | .tele => t.tele
  | .pan => t.pan | .tilt => t.tilt | .roll => t.roll | .zoom => t.zoom

/-- The table with the entry of one axis replaced. -/
def PerAxis.set {α : Type} (t : PerAxis α) (a : Axis) (v : α) : PerAxis α :=
  match a with
  | .track => { t with track := v } | .swing => { t with swing := v }
  | .lift => { t with lift := v } | .tele => { t with tele := v }
  | .pan => { t with pan := v } | .tilt => { t with tilt := v }
  | .roll => { t with roll := v } | .zoom => { t with zoom := v }

/-- The table whose entries a rule gives axis by axis. -/
def PerAxis.ofFn {α : Type} (f : Axis → α) : PerAxis α :=
  { track := f .track, swing := f .swing, lift := f .lift, tele := f .tele,
    pan := f .pan, tilt := f .tilt, roll := f .roll, zoom := f .zoom }

/-- The table with one value for every axis. -/
def PerAxis.fill {α : Type} (v : α) : PerAxis α := PerAxis.ofFn fun _ => v

/-- The masters attached to LINK A, LINK B and LINK S (00_scope.md section 2). -/
inductive Master where
  | consoleA | consoleB | supervisor
  deriving DecidableEq, Repr

/-- Every master, in the order LINK A, LINK B, LINK S. -/
def Master.all : List Master := [.consoleA, .consoleB, .supervisor]

/-- One entry per master, its link, or its view. -/
structure PerMaster (α : Type) where
  consoleA : α
  consoleB : α
  supervisor : α
  deriving DecidableEq, Repr

/-- The entry of one master. -/
def PerMaster.get {α : Type} (t : PerMaster α) : Master → α
  | .consoleA => t.consoleA | .consoleB => t.consoleB | .supervisor => t.supervisor

/-- The table with the entry of one master replaced. -/
def PerMaster.set {α : Type} (t : PerMaster α) (m : Master) (v : α) : PerMaster α :=
  match m with
  | .consoleA => { t with consoleA := v } | .consoleB => { t with consoleB := v }
  | .supervisor => { t with supervisor := v }

/-- The table whose entries a rule gives master by master. -/
def PerMaster.ofFn {α : Type} (f : Master → α) : PerMaster α :=
  { consoleA := f .consoleA, consoleB := f .consoleB, supervisor := f .supervisor }

/-- The table with one value for every master. -/
def PerMaster.fill {α : Type} (v : α) : PerMaster α := PerMaster.ofFn fun _ => v

/-- A table of numbered entries that lists only the entries differing from the value an unlisted number
has, its keys rising. `Sys2Proof/Machine/Ops.lean` reads and writes it. -/
abbrev Sparse (α : Type) := List (Nat × α)

end Sys2Proof
end

