-- ==== Sys2Proof/Config.lean ====
section
/-! DEFINITION. What the configuration memory fixes (the settings section and the preset section of
R171), the built-in defaults used when it cannot be read, and the values the spec leaves open. -/

namespace Sys2Proof

/-! ## Positions and limit settings (chapter 1) -/

/-- The least position (R3). -/
def positionMin : Int := -8388608

/-- The greatest position (R3). -/
def positionMax : Int := 8388607

/-- The seven limit settings of an axis channel (R4). -/
structure Limits where
  softMin : Int
  softMax : Int
  vmax : Nat
  amax : Nat
  trimRange : Nat
  followingLimit : Nat
  followingPersistence : Nat
  deriving DecidableEq, Repr

/-- One minimum and one maximum of a zone (R10). -/
structure Bounds where
  lo : Int
  hi : Int
  deriving DecidableEq, Repr

/-- The stored part of a zone (R10, R171): the armed flag is not stored. Axes outside the axis set hold
the bounds 0 to 0. -/
structure ZoneSetting where
  enabled : Bool
  axes : AxisSet
  bounds : PerAxis Bounds
  deriving DecidableEq, Repr

/-! ## Joystick profiles, views, timecode rate (chapters 3, 4, 8) -/

/-- A response profile (R35). -/
structure Profile where
  deadband : Nat
  expo : Nat
  gain : Nat
  invert : Bool
  deriving DecidableEq, Repr

/-- A view (R48). -/
structure View where
  enabled : Bool
  directory : Nat
  length : Nat
  key : Nat
  deriving DecidableEq, Repr

/-- The timecode rates (R118). -/
inductive Rate where
  | fps24 | fps25 | fps30
  deriving DecidableEq, Repr

/-! ## Drive bus settings (R130) -/

/-- The role of the part on the drive bus. -/
inductive BusRole where
  | frameMaster | follower
  deriving DecidableEq, Repr

/-- One slot of the slot map. -/
inductive Slot where
  | unused
  | demand (a : Axis)
  | feedback (a : Axis)
  deriving DecidableEq, Repr

/-! ## Fault sources and actions (R143, R144) -/

/-- The sixteen fault sources. -/
inductive FaultSource where
  | estop | stopOverrun | busSyncLost | driveSilent | driveFault | following | zoneEntry | axisLimit
  | linkAError | linkBError | linkSError | staleA | staleB | staleS | genlockLost | configInvalid
  deriving DecidableEq, Repr

/-- The id of a fault source (R143). -/
def FaultSource.id : FaultSource → Fin 16
  | .estop => 0 | .stopOverrun => 1 | .busSyncLost => 2 | .driveSilent => 3
  | .driveFault => 4 | .following => 5 | .zoneEntry => 6 | .axisLimit => 7
  | .linkAError => 8 | .linkBError => 9 | .linkSError => 10 | .staleA => 11
  | .staleB => 12 | .staleS => 13 | .genlockLost => 14 | .configInvalid => 15

/-- Every fault source in id order. -/
def FaultSource.all : List FaultSource :=
  [.estop, .stopOverrun, .busSyncLost, .driveSilent, .driveFault, .following, .zoneEntry, .axisLimit,
   .linkAError, .linkBError, .linkSError, .staleA, .staleB, .staleS, .genlockLost, .configInvalid]

/-- The source of an id, absent outside 0 to 15. -/
def FaultSource.ofId? : Nat → Option FaultSource
  | 0 => some .estop | 1 => some .stopOverrun | 2 => some .busSyncLost | 3 => some .driveSilent
  | 4 => some .driveFault | 5 => some .following | 6 => some .zoneEntry | 7 => some .axisLimit
  | 8 => some .linkAError | 9 => some .linkBError | 10 => some .linkSError | 11 => some .staleA
  | 12 => some .staleB | 13 => some .staleS | 14 => some .genlockLost | 15 => some .configInvalid
  | _ => none

/-- An action set: any subset of the five configurable actions (R144). -/
structure ActionSet where
  notice : Bool
  hold : Bool
  delay : Bool
  safeStop : Bool
  faultLine : Bool
  deriving DecidableEq, Repr

/-- The empty action set. -/
def ActionSet.none : ActionSet :=
  { notice := false, hold := false, delay := false, safeStop := false, faultLine := false }

/-- The action set NOTICE. -/
def ActionSet.noticeOnly : ActionSet := { ActionSet.none with notice := true }

/-- The action set SAFE_STOP. -/
def ActionSet.safeStopOnly : ActionSet := { ActionSet.none with safeStop := true }

/-! ## The settings section (R171) -/

/-- Everything the settings section of the configuration image holds. The action sets of ESTOP and
STOP_OVERRUN are fixed (R144); their two places in the table are never read. -/
structure Settings where
  fitted : AxisSet
  limits : PerAxis Limits
  zones : Vector ZoneSetting 8
  profiles : PerMaster (PerAxis Profile)
  staleLimits : PerMaster (Option Nat)   -- milliseconds; none is OFF (R33)
  views : PerMaster View
  rate : Rate
  role : BusRole
  period : Nat                           -- frame period in microseconds (R130)
  slots : Vector Slot 16
  actions : Vector ActionSet 16
  escalationDelay : Nat                  -- steps of 10 ms (R148)
  stopTime : Nat                         -- tenths of a second (R150)
  deriving DecidableEq, Repr

/-- The default limit settings (R4). -/
def Limits.builtIn : Limits :=
  { softMin := positionMin, softMax := positionMax, vmax := 1000, amax := 20, trimRange := 100000,
    followingLimit := 0, followingPersistence := 10 }

/-- A zone of the built-in defaults (R10): disabled, axes TRACK and SWING, bounds 0 to 0. -/
def ZoneSetting.builtIn : ZoneSetting :=
  { enabled := false, axes := 3#8, bounds := PerAxis.fill { lo := 0, hi := 0 } }

/-- The default response profile (R35). -/
def Profile.builtIn : Profile := { deadband := 40, expo := 64, gain := 500, invert := false }

/-- The default views (R48). -/
def View.builtIn : Master → View
  | .consoleA => { enabled := true, directory := 0, length := 16, key := 0 }
  | .consoleB => { enabled := true, directory := 1, length := 16, key := 0 }
  | .supervisor => { enabled := true, directory := 2, length := 16, key := 0 }

/-- The default slot map (R130): slot 2·a is DEMAND(a) and slot 2·a + 1 is FEEDBACK(a). -/
def defaultSlots : Vector Slot 16 :=
  #v[.demand .track, .feedback .track, .demand .swing, .feedback .swing,
     .demand .lift, .feedback .lift, .demand .tele, .feedback .tele,
     .demand .pan, .feedback .pan, .demand .tilt, .feedback .tilt,
     .demand .roll, .feedback .roll, .demand .zoom, .feedback .zoom]

/-- The default action sets of the sources (R143). -/
def defaultActions : Vector ActionSet 16 :=
  #v[ActionSet.none, ActionSet.none, ActionSet.safeStopOnly, ActionSet.safeStopOnly,
     ActionSet.safeStopOnly, { ActionSet.none with hold := true, delay := true },
     ActionSet.noticeOnly, ActionSet.none,
     ActionSet.noticeOnly, ActionSet.noticeOnly, ActionSet.noticeOnly, ActionSet.noticeOnly,
     ActionSet.noticeOnly, ActionSet.noticeOnly, ActionSet.noticeOnly, ActionSet.noticeOnly]

/-- The built-in defaults of every setting (R2, R4, R10, R33, R35, R48, R118, R130, R144, R148, R150). -/
def Settings.builtIn : Settings :=
  { fitted := AxisSet.full
    limits := PerAxis.fill Limits.builtIn
    zones := Vector.replicate 8 ZoneSetting.builtIn
    profiles := PerMaster.fill (PerAxis.fill Profile.builtIn)
    staleLimits := PerMaster.fill (some 50)
    views := PerMaster.ofFn View.builtIn
    rate := .fps25
    role := .frameMaster
    period := 1000
    slots := defaultSlots
    actions := defaultActions
    escalationDelay := 100
    stopTime := 30 }

/-! ## The preset section (chapter 4) -/

/-- Interpolation profile of a keyframe (R45). -/
inductive Shape where
  | linear | ease | dwell
  deriving DecidableEq, Repr

/-- A keyframe (R45): a target for every axis of its record and for no other axis. -/
structure Keyframe where
  targets : PerAxis (Option Int)
  duration : Nat
  shape : Shape
  gate : Bool
  deriving DecidableEq, Repr

/-- What a DEFINED record holds besides its key, guard and author (R44). -/
structure RecordBody where
  axes : AxisSet
  keyframes : List Keyframe
  label : Option (List Octet)
  deriving DecidableEq, Repr

/-- A preset record (R44). It is FREE exactly when it has no body. -/
structure PresetRecord where
  body : Option RecordBody
  key : Nat
  guarded : Bool
  author : Option Master
  deriving DecidableEq, Repr

/-- A record after POWER_ON (R50). -/
def PresetRecord.cleared : PresetRecord := { body := none, key := 0, guarded := false, author := none }

/-- A cue entry (R46). -/
structure CueEntry where
  valid : Bool
  locked : Bool
  record : Nat
  deriving DecidableEq, Repr

/-- A cue entry after POWER_ON (R50). -/
def CueEntry.cleared : CueEntry := { valid := false, locked := false, record := 0 }

/-- What a bank entry names (R47). -/
inductive BankTarget where
  | empty
  | list (n : Nat)
  | run (base count : Nat)
  deriving DecidableEq, Repr

/-- A bank entry (R47). -/
structure BankEntry where
  locked : Bool
  target : BankTarget
  deriving DecidableEq, Repr

/-- A bank entry after POWER_ON (R50). -/
def BankEntry.cleared : BankEntry := { locked := false, target := .empty }

/-- The preset section: 256 records by number, the cue entries of 32 lists under the key
list · 16 + position, and the bank entries of 4 directories under the key directory · 16 + bank. -/
structure PresetStore where
  records : Sparse PresetRecord
  cues : Sparse CueEntry
  banks : Sparse BankEntry
  deriving DecidableEq, Repr

/-- The store after POWER_ON (R50): nothing listed, so every entry reads as cleared. -/
def PresetStore.cleared : PresetStore := { records := [], cues := [], banks := [] }

/-! ## The configuration image (R171) -/

/-- The image in the configuration memory as the load reads it. The spec gives the header's fields and the
two sections' contents and no octet layout, so the format tag, the length and the check value stand as
what the load finds of them, and `valuesRead` says that every named value of the sections is one of its
values. -/
structure ConfigImage where
  formatRight : Bool
  lengthRight : Bool
  checkMatches : Bool
  marker : Bool
  valuesRead : Bool
  settings : Settings
  presets : PresetStore
  deriving DecidableEq, Repr

/-- The memory contents the model starts with: no image has been written (DESIGN CHOICE, log entry 4). -/
def ConfigImage.unwritten : ConfigImage :=
  { formatRight := false, lengthRight := false, checkMatches := false, marker := false,
    valuesRead := false, settings := Settings.builtIn, presets := PresetStore.cleared }

/-! ## Values the spec leaves open -/

/-- The part revision that HELLO reports (R167): fixed for a part, not stated by the spec. -/
opaque Config.partRevision : Nat

/-- How many whole items of a reply fit its payload (R162), for a reply whose item layout the spec does
not give, fresh for each such reply (log entry 8). -/
opaque Config.replyItemsThatFit : Nat → Nat

/-- Octets of a frame sent whose layout the spec does not give: the data of a reply or the contents of a notice,
fresh for each frame sent and each place in it (log entry 31). -/
opaque Config.openOctets : Nat → Nat → List Octet

/-- Whether a save that failed in step 4 left the marker set; if not, it left the check wrong (R173, log
entry 9). -/
opaque Config.failedSaveLeavesMarker : Nat → Bool

end Sys2Proof
end

