-- ==== Sys2Proof/Syntax.lean ====
section
/-! DEFINITION. The commands of the CB-8: one constructor per row of spec/opcode_table.json. A request
carries its header and its arguments as the octets of its payload spell them (11.7.2), so an argument
outside its range can be written and is refused by the request's own rule. An event carries what the
outside brings with it. Every command carries the oscillator counts (0.1 µs) that passed since the
command before it (log entry 1). -/

namespace Sys2Proof

/-- Where a request comes from and when: the counts since the command before it, its link, its tag. -/
structure Header where
  elapsed : Nat
  link : Master
  tag : Octet
  deriving DecidableEq, Repr

/-- The header of the same request as it stands in a receive buffer, where no time is attached. -/
def Header.unstamped (h : Header) : Header := { h with elapsed := 0 }

/-- A two-digit BCD field of a timecode (R118). -/
structure Bcd where
  tens : Nat
  ones : Nat
  deriving DecidableEq, Repr

/-- A timecode hh:mm:ss:ff as eight BCD digits (R118). -/
structure Timecode where
  hh : Bcd
  mm : Bcd
  ss : Bcd
  ff : Bcd
  deriving DecidableEq, Repr

/-- A keyframe argument of STORE PRESET (11.7.2). -/
structure KeyframeArg where
  targets : List Int
  duration : Nat
  shape : Nat
  gate : Nat
  deriving DecidableEq, Repr

/-- The keyframe argument of APPEND KEYFRAME (R57): its two forms, and a form or count octet that does not
agree with the payload's length. -/
inductive AppendArg where
  | explicit (targets : List (Nat × Int)) (duration shape gate : Nat)
  | capture (duration shape gate : Nat)
  | unreadable
  deriving DecidableEq, Repr

/-- A cue argument of RECALL (11.7.2). -/
structure CueArg where
  kind : Nat
  timecode : Timecode
  deriving DecidableEq, Repr

/-- The axis filter argument of RECALL (11.7.2): kind 0 for ALL, 1 for a set. -/
structure FilterArg where
  kind : Nat
  axes : AxisSet
  deriving DecidableEq, Repr

/-- Drive states of a feedback word (R135). -/
inductive DriveState where
  | ready | notReady | fault
  deriving DecidableEq, Repr

/-- A feedback word (R135). -/
structure FeedbackWord where
  position : BitVec 24
  state : DriveState
  echo : BitVec 8
  deriving DecidableEq, Repr

/-- What arrives in the sixteen slots of a frame: a feedback word where one is received intact (R135). Every slot
is listed, and the part reads the FEEDBACK slots of its fitted axes. -/
abbrev SlotWords := Vector (Option FeedbackWord) 16

/-- The selection of the MODE pin (R168). -/
inductive OperatingMode where
  | supervised | standalone
  deriving DecidableEq, Repr

/-- What the configuration load meets on the CFG lines (R171): a memory that does not answer, the memory
as the part last left it, or a memory holding another image. -/
inductive MemoryAnswer where
  | silent
  | asHeld
  | holding (image : ConfigImage)
  deriving DecidableEq, Repr

/-- Why a save failed (R173). -/
inductive SaveFault where
  | noAnswer | mismatch
  deriving DecidableEq, Repr

/-- How a save ends (R173). -/
inductive SaveEnding where
  | done
  | failed (step : Nat) (why : SaveFault)
  deriving DecidableEq, Repr

/-- The commands. -/
inductive Instr where
  -- kinds 2 to 7: axis authority (chapter 2)
  | claim (h : Header) (axes : AxisSet) (wait : Nat)
  | release (h : Header) (axes : AxisSet)
  | yield (h : Header) (axes : AxisSet) (on : Nat)
  | seize (h : Header) (axes : AxisSet)
  | withdrawWait (h : Header) (axes : AxisSet)
  | queryAuthority (h : Header) (axes : AxisSet)
  -- kinds 8 to 11: modes and drive enables (chapters 7, 9)
  | setMode (h : Header) (axes : AxisSet) (mode : Nat)
  | takeLive (h : Header) (axes : AxisSet) (frames : Nat)
  | enable (h : Header) (axes : AxisSet)
  | disable (h : Header) (axes : AxisSet)
  -- kinds 12 to 16: the preset store (chapter 4)
  | storePreset (h : Header) (bank pos : Nat) (axes : AxisSet) (guarded : Nat) (label : List Octet) (keyframes : List KeyframeArg)
  | capture (h : Header) (bank pos : Nat) (axes : AxisSet) (duration shape : Nat)
  | appendKeyframe (h : Header) (bank pos : Nat) (keyframe : AppendArg)
  | erasePreset (h : Header) (bank pos : Nat)
  | queryPreset (h : Header) (bank pos : Nat) (first : Nat)
  -- kinds 17 to 20: moves (chapter 6)
  | recallCue (h : Header) (bank pos : Nat) (filter : FilterArg) (speed : Nat) (cue : CueArg) (policy : Nat)
  | go (h : Header) (id : Nat)
  | abort (h : Header) (id : Nat)
  | speed (h : Header) (id speed : Nat)
  -- kinds 21 to 34: reading
  | queryQueue (h : Header)
  | queryLimits (h : Header) (axis : Nat)
  | queryZones (h : Header)
  | queryJoystick (h : Header) (master : Nat)
  | queryDirectory (h : Header) (directory : Nat)
  | queryCueList (h : Header) (list : Nat)
  | queryViews (h : Header)
  | queryCache (h : Header)
  | queryBlend (h : Header) (axes : AxisSet)
  | queryCoupling (h : Header)
  | queryTimecode (h : Header)
  | queryBus (h : Header)
  | queryFaults (h : Header)
  | status (h : Header)
  -- kinds 35 to 40
  | setReport (h : Header) (interval : Nat)
  | releaseClear (h : Header)
  | setProfile (h : Header) (master axis deadband expo gain invert : Nat)
  | setStaleLimit (h : Header) (master limit : Nat)
  | setView (h : Header) (view enabled directory length key : Nat)
  | purge (h : Header) (scope : Nat)
  -- kinds 41 to 59: requests of the supervisor
  | setFitted (h : Header) (axes : AxisSet)
  | setLimits (h : Header) (axis : Nat) (softMin softMax : Int) (vmax amax trimRange followingLimit followingPersistence : Nat)
  | setZone (h : Header) (zone enabled : Nat) (axes : AxisSet) (bounds : List (Int × Int))
  | setBankEntry (h : Header) (directory bank kind locked : Nat) (fields : List Nat)
  | setCueEntry (h : Header) (list pos valid locked record : Nat)
  | setCoupling (h : Header) (entry enabled source target : Nat) (gain : Int)
  | tcRun (h : Header)
  | tcStop (h : Header)
  | setTimecode (h : Header) (value : Timecode)
  | offsetTimecode (h : Header) (sign : Nat) (value : Timecode)
  | setRate (h : Header) (rate : Nat)
  | setBusConfig (h : Header) (role period : Nat) (slots : List Nat)
  | busStart (h : Header)
  | busStop (h : Header)
  | setFaultActions (h : Header) (source actions : Nat)
  | setFaultTimers (h : Header) (escalationDelay stopTime : Nat)
  | faultClear (h : Header) (sources : BitVec 16)
  | saveStore (h : Header)
  | restart (h : Header)
  -- link events (chapters 3, 11)
  | joy (elapsed : Nat) (link : Master) (deflections : PerAxis Int)
  | frameReceived (elapsed : Nat) (link : Master) (octets : List Octet)
  | frameLeavesQueue (elapsed : Nat) (link : Master)
  -- resets and start-up (chapter 12)
  | powerOn (elapsed : Nat)
  | lowSupply (elapsed : Nat)
  | resetPin (elapsed : Nat)
  | powerUpHoldEnd (elapsed : Nat) (pin : OperatingMode)
  | configurationLoad (elapsed : Nat) (found : MemoryAnswer)
  -- discrete inputs, the bus and the clock
  | estop (elapsed : Nat)
  | genlockPulse (elapsed : Nat)
  | genlockLossEvent (elapsed : Nat)
  | frameStart (elapsed : Nat) (words : SlotWords)
  | busSyncEdge (elapsed : Nat) (words : SlotWords)
  | busSyncLost (elapsed : Nat)
  | waitExpiry (elapsed : Nat) (waiter : Master)
  | staleEntry (elapsed : Nat) (master : Master)
  | escalationExpiry (elapsed : Nat)
  | stopTimerExpiry (elapsed : Nat)
  | saveCompletion (elapsed : Nat) (ending : SaveEnding)
  | estopInactive (elapsed : Nat)
  | resetRelease (elapsed : Nat)
  | saveMarkerWritten (elapsed : Nat)
  deriving DecidableEq, Repr

end Sys2Proof
end

