-- ==== Sys2Proof/WellFormed.lean ====
section
/-! DEFINITION. Which commands the octets of a payload and the lines of the part can bring: the widths of
every operand. An operand outside its rule's range but within its width is well formed, and the command's own
rule refuses it. -/

namespace Sys2Proof

/-- Whether a number fits one octet. -/
def fitsOctet (n : Nat) : Bool := decide (n < 256)

/-- Whether a number fits two octets. -/
def fitsTwo (n : Nat) : Bool := decide (n < 65536)

/-- Whether a number fits four octets. -/
def fitsFour (n : Nat) : Bool := decide (n < 4294967296)

/-- Whether a value fits the three octets of a position. -/
def fitsPosition (v : Int) : Bool := decide (positionMin ≤ v) && decide (v ≤ positionMax)

/-- Whether a signed value fits two octets. -/
def fitsSignedTwo (v : Int) : Bool := decide (-32768 ≤ v) && decide (v ≤ 32767)

/-- Whether the two digits of a field fit the four bits each has. -/
def Bcd.wf (b : Bcd) : Bool := decide (b.tens < 16) && decide (b.ones < 16)

/-- Whether a timecode fits its four octets. -/
def Timecode.wf (t : Timecode) : Bool := t.hh.wf && t.mm.wf && t.ss.wf && t.ff.wf

/-- Whether a keyframe argument fits its octets. -/
def KeyframeArg.wf (k : KeyframeArg) : Bool :=
  k.targets.all fitsPosition && fitsTwo k.duration && fitsOctet k.shape && fitsOctet k.gate

/-- Whether an appended keyframe fits its octets. -/
def AppendArg.wf : AppendArg → Bool
  | .explicit ps d sh g =>
    (ps.all fun p => fitsOctet p.1 && fitsPosition p.2) && fitsTwo d && fitsOctet sh && fitsOctet g &&
      decide (ps.length ≤ 28)
  | .capture d sh g => fitsTwo d && fitsOctet sh && fitsOctet g
  | .unreadable => true

/-- Whether a table's eight values all satisfy a test. -/
def PerAxis.all {α : Type} (t : PerAxis α) (p : α → Bool) : Bool := Axis.all.all fun a => p (t.get a)

/-- Whether a save ending names a step of the four. -/
def SaveEnding.wf : SaveEnding → Bool
  | .done => true
  | .failed step _ => decide (1 ≤ step) && decide (step ≤ 4)

/-- Whether the octets of a frame hold no flag, so that they stand between two flags (R157). -/
def betweenFlags (l : List Octet) : Bool := l.all fun o => o != 165#8

/-- Whether a request's operands fit their octets: kinds 2 to 20. -/
def Instr.wfEarly : Instr → Bool
  | .claim _ _ w => fitsOctet w
  | .yield _ _ on => fitsOctet on
  | .setMode _ _ m => fitsOctet m
  | .takeLive _ _ f => fitsTwo f
  | .storePreset _ b q _ g l ks =>
    fitsOctet b && fitsOctet q && fitsOctet g && decide (l.length ≤ 13) && ks.all KeyframeArg.wf
  | .capture _ b q _ d sh => fitsOctet b && fitsOctet q && fitsTwo d && fitsOctet sh
  | .appendKeyframe _ b q k => fitsOctet b && fitsOctet q && k.wf
  | .erasePreset _ b q => fitsOctet b && fitsOctet q
  | .queryPreset _ b q f => fitsOctet b && fitsOctet q && fitsOctet f
  | .recallCue _ b q f v c p =>
    fitsOctet b && fitsOctet q && fitsOctet f.kind && fitsTwo v && fitsOctet c.kind && c.timecode.wf &&
      fitsOctet p
  | .go _ id | .abort _ id => fitsOctet id
  | .speed _ id v => fitsOctet id && fitsTwo v
  | _ => true

/-- Whether a request's operands fit their octets: kinds 21 to 40. -/
def Instr.wfMiddle : Instr → Bool
  | .queryLimits _ n | .queryJoystick _ n | .queryDirectory _ n | .queryCueList _ n | .setReport _ n
  | .purge _ n => fitsOctet n
  | .setProfile _ m a d e g i =>
    fitsOctet m && fitsOctet a && fitsTwo d && fitsTwo e && fitsTwo g && fitsOctet i
  | .setStaleLimit _ m l => fitsOctet m && fitsOctet l
  | .setView _ v e d l k => fitsOctet v && fitsOctet e && fitsOctet d && fitsOctet l && fitsOctet k
  | _ => true

/-- Whether a request's operands fit their octets: kinds 41 to 59. -/
def Instr.wfLate : Instr → Bool
  | .setLimits _ a lo hi v c t f n =>
    fitsOctet a && fitsPosition lo && fitsPosition hi && fitsTwo v && fitsTwo c && fitsFour t &&
      fitsFour f && fitsOctet n
  | .setZone _ z e _ bs =>
    fitsOctet z && fitsOctet e && decide (bs.length ≤ 8) &&
      bs.all fun b => fitsPosition b.1 && fitsPosition b.2
  | .setBankEntry _ d b k l fs =>
    fitsOctet d && fitsOctet b && fitsOctet k && fitsOctet l && decide (fs.length ≤ 2) && fs.all fitsOctet
  | .setCueEntry _ l q v k r => fitsOctet l && fitsOctet q && fitsOctet v && fitsOctet k && fitsOctet r
  | .setCoupling _ n e a b g =>
    fitsOctet n && fitsOctet e && fitsOctet a && fitsOctet b && fitsSignedTwo g
  | .setTimecode _ t => t.wf
  | .offsetTimecode _ sg t => fitsOctet sg && t.wf
  | .setRate _ r => fitsOctet r
  | .setBusConfig _ r t sl => fitsOctet r && fitsTwo t && decide (sl.length = 16) && sl.all fitsOctet
  | .setFaultActions _ a b => fitsOctet a && fitsOctet b
  | .setFaultTimers _ e t => fitsTwo e && fitsOctet t
  | _ => true

/-- Whether an event's operands are ones its lines can bring. -/
def Instr.wfEvent : Instr → Bool
  | .joy _ _ d => d.all fitsSignedTwo
  | .frameReceived _ _ l => betweenFlags l
  | .saveCompletion _ e => e.wf
  | _ => true

/-- Whether a command is well formed. -/
def Instr.wf (i : Instr) : Bool := i.wfEarly && i.wfMiddle && i.wfLate && i.wfEvent

end Sys2Proof
end

