-- ==== Sys2Proof/Decode.lean ====
section
/-! DEFINITION. The decoder of spec/opcode_table.json. The table gives no row any bits (spec/98_reader.md), so
no word spells a command. The octets of a master link are read in Sys2Proof/Machine/Framing.lean. -/

namespace Sys2Proof

/-- The command that a word spells by the table's bits: none. -/
def decodeTableWord (_nbits _w : Nat) : Option Instr := none

end Sys2Proof
end

