-- ==== Sys2Proof/Machine/State.lean ====
section
/-! DEFINITION. Everything the spec gives the CB-8 to hold, as plain data, and its value right after a
POWER_ON reset. -/

namespace Sys2Proof.Machine

/-! ## Outcomes other than a next state -/

/-- Faults of the model. There is none: the part records and acts on every condition (R143 to R155) and
answers every request (R162), so no meaning stops the machine. -/
inductive Fault where
  deriving DecidableEq, Repr

/-- Refusals of the model. -/
inductive Refusal where
  /-- A command without a meaning, raised by exec's own arm for it; safe. No arm uses it. -/
  | notModelled (mnemonic : String)
  deriving DecidableEq, Repr

/-! ## Authority and joystick (chapters 2 and 3) -/

/-- An entry of a waiting list (R15). -/
structure WaitEntry where
  waiter : Master
  deadline : Nat
  deriving DecidableEq, Repr

/-- An authority record (R15). No owner is NONE. -/
structure Authority where
  owner : Option Master
  yielding : Bool
  waiting : List WaitEntry
  deriving DecidableEq, Repr

/-- Stale state of a master (R33). -/
inductive StaleState where
  | fresh | stale
  deriving DecidableEq, Repr

/-- A joystick record (R33); the stale limit is a setting. -/
structure Joystick where
  sample : PerAxis Int
  arrival : Option Nat
  stale : StaleState
  deriving DecidableEq, Repr

/-! ## Cache, moves, blend (chapters 5, 6, 7) -/

/-- An entry of the resolution cache (R67). -/
structure CacheEntry where
  directory : Nat
  bank : Nat
  pos : Nat
  record : Nat
  locked : Bool
  deriving DecidableEq, Repr

/-- States of a move (R78). -/
inductive MoveState where
  | queued | running | gated | stopping
  deriving DecidableEq, Repr

/-- A cue (R78). -/
inductive Cue where
  | now
  | timecode (value : Timecode)
  | go
  deriving DecidableEq, Repr

/-- Outcomes of a move (R95). -/
inductive MoveOutcome where
  | done | aborted | cut | withdrawn | cueMissed | fault
  deriving DecidableEq, Repr

/-- Start position and target of one axis in a segment (R78). -/
structure Path where
  start : Int
  target : Int
  deriving DecidableEq, Repr

/-- A segment (R78, R86): a path for each axis of the move, profile, frames elapsed e, length L. -/
structure Segment where
  shape : Shape
  paths : PerAxis (Option Path)
  elapsed : Nat
  length : Nat
  deriving DecidableEq, Repr

/-- The two stop outcomes of a STOPPING move (R78). -/
inductive StopOutcome where
  | aborted | fault
  deriving DecidableEq, Repr

/-- A move record (R78). -/
structure Move where
  id : Nat
  requester : Master
  record : Nat
  axes : AxisSet
  state : MoveState
  cue : Cue
  satisfied : Bool
  goPending : Bool
  speed : Nat
  keyframe : Option Nat
  segment : Option Segment
  stopOutcome : Option StopOutcome
  deriving DecidableEq, Repr

/-- Blend modes (R100). -/
inductive Mode where
  | hold | live | preset | trim | handoff
  deriving DecidableEq, Repr

/-- A blend record (R100). -/
structure Blend where
  mode : Mode
  base : Int
  trim : Int
  weight : Nat
  step : Nat
  live : Int
  preset : Int
  deriving DecidableEq, Repr

/-- A coupling table entry (R105). -/
structure Coupling where
  enabled : Bool
  source : Axis
  target : Axis
  gain : Int
  reference : Int
  deriving DecidableEq, Repr

/-- A demand history (R6). -/
structure Demand where
  d1 : Int
  d2 : Int
  deriving DecidableEq, Repr

/-! ## Timecode and drive bus (chapters 8 and 9) -/

/-- Run state of the timecode, and state of the drive bus (R118, R130). -/
inductive RunState where
  | stopped | running
  deriving DecidableEq, Repr

/-- Lock state of the genlock monitor (R119). -/
inductive LockState where
  | noReference | locking | locked | lost
  deriving DecidableEq, Repr

/-- The timecode unit with its genlock monitor (R118, R119); the rate is a setting. -/
structure TimecodeUnit where
  counter : Timecode
  run : RunState
  period : Nat
  captured : Option Nat
  lock : LockState
  good : Nat
  deriving DecidableEq, Repr

/-- Drive enable (R135). -/
inductive DriveEnable where
  | released | enabled
  deriving DecidableEq, Repr

/-- Echo state (R135). -/
inductive EchoState where
  | none | good | stale
  deriving DecidableEq, Repr

/-- A demand word as sent (R135). -/
structure SentWord where
  position : Int
  enabled : Bool
  sequence : BitVec 8
  deriving DecidableEq, Repr

/-- The per-axis items of the drive bus interface (R135). `sent` is the most recent demand word and
`sentBefore` the one before it. -/
structure Drive where
  enable : DriveEnable
  feedback : Int
  state : DriveState
  echo : EchoState
  silent : Nat
  following : Nat
  sent : Option SentWord
  sentBefore : Option SentWord
  deriving DecidableEq, Repr

/-- Sync state of a follower (R134). -/
inductive SyncState where
  | idle | waiting | present | lost
  deriving DecidableEq, Repr

/-- The drive bus interface (R130, R134, R135, R141); role, period and slot map are settings. `edgeSeen`
says that an edge has been taken since BUS START, `syncPulses` counts the pulses driven on BUS SYNC, and
`slotWords` is what the part put into each slot at the last frame start (log entry 21). -/
structure Bus where
  state : RunState
  frameNumber : BitVec 32
  sequence : BitVec 8
  syncCounter : Nat
  capturedSync : Option Nat
  sync : SyncState
  edgeSeen : Bool
  syncPulses : Nat
  slotWords : Vector (Option SentWord) 16
  latch : Bool
  drives : PerAxis Drive
  deriving DecidableEq, Repr

/-! ## Fault control (chapter 10) -/

/-- A fault source's flag and recorded axis set (R143). -/
structure SourceState where
  flag : Bool
  axes : AxisSet
  deriving DecidableEq, Repr

/-- What a raise carries (R143). -/
structure RaiseInfo where
  axes : Option AxisSet
  zone : Option Nat
  master : Option Master
  deriving DecidableEq, Repr

/-- The first-fault record (R145). -/
structure FirstFault where
  source : FaultSource
  info : RaiseInfo
  timecode : Timecode
  frameNumber : BitVec 32
  time : Nat
  deriving DecidableEq, Repr

/-- Safe-stop state (R149). -/
inductive SafeStop where
  | normal | stopping | released
  deriving DecidableEq, Repr

/-- Stop cause (R149). -/
inductive StopCause where
  | source (s : FaultSource)
  | escalation
  | estop
  | reset
  deriving DecidableEq, Repr

/-- The fault control unit (R143, R145, R148, R149, R150). A timer holds its expiry while RUNNING. -/
structure FaultUnit where
  sources : Vector SourceState 16
  first : Option FirstFault
  escalation : Option Nat
  safeStop : SafeStop
  cause : StopCause
  stopTimer : Option Nat
  estopActive : Bool
  deriving DecidableEq, Repr

/-! ## Start-up (chapter 12) -/

/-- Reset causes (R169). -/
inductive ResetCause where
  | powerOn | lowSupply | resetPin | restart
  deriving DecidableEq, Repr

/-- Configuration source (R169). -/
inductive ConfigSource where
  | memory | defaults | invalid
  deriving DecidableEq, Repr

/-- Where start-up stands (R169, R170). -/
inductive Phase where
  | inReset | hold | loading | ready
  deriving DecidableEq, Repr

/-- The start-up controller (R168, R169, R170) with the levels of RESET and of the supply. -/
structure Startup where
  phase : Phase
  cause : ResetCause
  saveInterrupted : Bool
  source : ConfigSource
  mode : OperatingMode
  resetLow : Bool
  supplyLow : Bool
  deriving DecidableEq, Repr

/-- A save in flight (R173): its requester and the settings copied at acceptance. -/
structure SaveInFlight where
  requester : Master
  copied : Settings
  deriving DecidableEq, Repr

/-! ## Link frames (chapter 11) -/

/-- Refusal codes (11.7.6). -/
inductive RefusalCode where
  | badArgument | badAxis | notPermitted | busRunning | busStopped | axisInUse | outOfLimits | notOwner
  | viewOff | rangeBank | bankEmpty | entryEmpty | rangeEntry | rangeRecord
  | locked | keyMismatch | inUse | saving | recordFree | full | guarded
  | emptyAxes | faultStop | cuePassed | queueFull | badTimecode | unknownMove
  | tcRunning | slotMap | axesEnabled | moveActive | estopActive | stopInProgress | faultsSet
  deriving DecidableEq, Repr

/-- Outcomes of one axis in a request judged per axis (11.7.6), with the data the rules give. -/
inductive AxisOutcome where
  | granted | owned | transferred
  | held (owner : Option Master)
  | waiting (owner : Option Master) (place left : Nat)
  | alreadyWaiting (owner : Option Master) (place left : Nat)
  | released
  | passed (owner : Option Master)
  | yieldOn | yieldOff | seized | waitWithdrawn | notWaiting
  | live | hold | trim | handoff | badMode
  | enabled | disabled | driveNotReady | latched
  | notOwner | busStopped | outOfLimits
  deriving DecidableEq, Repr

/-- What QUERY AUTHORITY reports of one axis (R30). -/
structure AuthorityReport where
  owner : Option Master
  yielding : Bool
  waiting : List (Master × Nat)
  deriving DecidableEq, Repr

/-- The DEFINED part of a QUERY PRESET reply (R59). -/
structure PresetBodyReport where
  axes : AxisSet
  label : Option (List Octet)
  count : Nat
  keyframes : List Keyframe
  deriving DecidableEq, Repr

/-- A QUERY PRESET reply (R59). -/
structure PresetReport where
  record : Nat
  locked : Bool
  key : Nat
  guarded : Bool
  author : Option Master
  body : Option PresetBodyReport
  deriving DecidableEq, Repr

/-- The effect a GO takes (R90). -/
inductive GoEffect where
  | cueSatisfied | goPending | noChange
  deriving DecidableEq, Repr

/-- A QUERY LIMITS reply (R14). -/
structure LimitsReport where
  fitted : Bool
  limits : Limits
  demand : Demand
  clamped : Bool
  deriving DecidableEq, Repr

/-- One zone of a QUERY ZONES reply (R14). -/
structure ZoneReport where
  zone : ZoneSetting
  armed : Bool
  deriving DecidableEq, Repr

/-- A QUERY JOYSTICK reply (R43). -/
structure JoystickReport where
  sample : PerAxis Int
  elapsed : Option Nat
  stale : StaleState
  limit : Option Nat
  profiles : PerAxis Profile
  deriving DecidableEq, Repr

/-- One axis of a QUERY BLEND reply (R117). -/
structure BlendReport where
  blend : Blend
  offset : Int
  demand : Demand
  move : Option Nat
  deriving DecidableEq, Repr

/-- A QUERY TIMECODE reply (R129). -/
structure TimecodeReport where
  counter : Timecode
  rate : Rate
  run : RunState
  lock : LockState
  good : Nat
  captured : Option Nat
  deriving DecidableEq, Repr

/-- One axis of a QUERY BUS reply (R142). -/
structure DriveReport where
  enable : DriveEnable
  feedback : Int
  state : DriveState
  echo : EchoState
  silent : Nat
  following : Nat
  deriving DecidableEq, Repr

/-- A QUERY BUS reply (R142). -/
structure BusReport where
  state : RunState
  role : BusRole
  period : Nat
  frameNumber : BitVec 32
  sequence : BitVec 8
  sync : SyncState
  capturedSync : Option Nat
  latch : Bool
  slots : Vector Slot 16
  drives : PerAxis DriveReport
  deriving DecidableEq, Repr

/-- A QUERY FAULTS reply (R155); a timer reports its milliseconds left while RUNNING. -/
structure FaultsReport where
  sources : Vector SourceState 16
  first : Option FirstFault
  actions : List ActionSet
  escalationLeft : Option Nat
  escalationDelay : Nat
  safeStop : SafeStop
  cause : StopCause
  stopLeft : Option Nat
  stopTime : Nat
  estopActive : Bool
  faultLine : Bool
  deriving DecidableEq, Repr

/-- One link in a STATUS reply (R165). -/
structure LinkStatus where
  badRun : Nat
  overrun : Nat
  deriving DecidableEq, Repr

/-- One axis in a STATUS reply: what R165 lists, and D1, which R6 has STATUS replies read (log entry 30). -/
structure AxisStatus where
  owner : Option Master
  mode : Mode
  enable : DriveEnable
  d1 : Int
  deriving DecidableEq, Repr

/-- A STATUS reply (R165). -/
structure StatusReport where
  links : PerMaster LinkStatus
  noticesLost : Bool
  bus : RunState
  safeStop : SafeStop
  counter : Timecode
  lock : LockState
  axes : PerAxis AxisStatus
  deriving DecidableEq, Repr

/-- The data of a reply, as the request's rule gives it. -/
inductive ReplyData where
  | none
  | outcomes (l : List AxisOutcome)
  | authority (l : List AuthorityReport)
  | stored (record : Nat)
  | captured (record : Nat) (targets : List Int)
  | appended (record count : Nat)
  | preset (r : PresetReport)
  | recalled (id record : Nat) (axes : AxisSet) (cut : List Nat)
  | went (effect : GoEffect)
  | queue (moves : List Move) (counter : Nat)
  | limits (r : LimitsReport)
  | zones (l : List ZoneReport)
  | joystick (r : JoystickReport)
  | banks (l : List BankEntry)
  | cueEntries (l : List CueEntry)
  | views (v : PerMaster View)
  | cache (l : List CacheEntry)
  | blend (l : List BlendReport)
  | couplings (l : Vector Coupling 4)
  | timecode (r : TimecodeReport)
  | counter (value : Timecode)
  | bus (r : BusReport)
  | faults (r : FaultsReport)
  | status (r : StatusReport)
  | purged (n : Nat)
  | sources (l : List FaultSource)
  deriving DecidableEq, Repr

/-- What a reply says (R162): OK or a refusal code, the omitted count, the data. -/
structure Reply where
  refusal : Option RefusalCode
  omitted : Nat
  data : ReplyData
  deriving DecidableEq, Repr

/-- One axis of an AXIS_REPORT (R166). -/
structure AxisReport where
  d1 : Int
  feedback : Int
  mode : Mode
  owner : Option Master
  deriving DecidableEq, Repr

/-- Notices (R163). -/
inductive Notice where
  | hello (cause : ResetCause) (saveInterrupted : Bool) (source : ConfigSource) (revision : Nat)
  | granted (axes : AxisSet) (owner : Master)
  | taken (axes : AxisSet) (owner : Master)
  | waitExpired (axes : List (Axis × Option Master))
  | moveStarted (id record : Nat) (axes : AxisSet) (state : MoveState) (frameNumber : BitVec 32) (timecode : Timecode)
  | moveDone (id record : Nat) (outcome : MoveOutcome)
  | fault (source : FaultSource) (info : RaiseInfo) (first : Bool)
  | axisReport (frameNumber : BitVec 32) (timecode : Timecode) (axes : PerAxis AxisReport)
  | saveDone
  | saveFailed (step : Nat) (why : SaveFault)
  deriving DecidableEq, Repr

/-- A frame of a transmit queue (R156). -/
inductive LinkFrame where
  | reply (tag : Octet) (r : Reply)
  | notice (n : Notice)
  deriving DecidableEq, Repr

/-- Link state (R156). -/
inductive LinkState where
  | closed | opened
  deriving DecidableEq, Repr

/-- A link port (R156). The receive buffer holds requests as commands, each with an unstamped header. `line` is
what the line carried for the frame sent last, its two flags included (R157; log entry 21). -/
structure Port where
  link : LinkState
  badRun : Nat
  overrun : Nat
  rx : List Instr
  tx : List LinkFrame
  noticesLost : Bool
  interval : Option Nat
  countdown : Nat
  line : List Octet
  deriving DecidableEq, Repr

/-! ## The state -/

/-- The part's timebase (R15): milliseconds since the power-up hold, and the counts of 0.1 µs past them. -/
structure Timebase where
  ms : Nat
  counts : Nat
  deriving DecidableEq, Repr

/-- The whole state of the block, and the queue of the commands that wait. -/
structure State where
  pending : List Instr
  timebase : Timebase
  startup : Startup
  save : Option SaveInFlight
  memory : ConfigImage
  settings : Settings
  store : PresetStore
  ports : PerMaster Port
  authority : PerAxis Authority
  joysticks : PerMaster Joystick
  cache : List CacheEntry
  queue : List Move
  nextMoveId : Nat
  blend : PerAxis Blend
  couplings : Vector Coupling 4
  demand : PerAxis Demand
  clamped : PerAxis Bool
  armed : Vector Bool 8
  timecode : TimecodeUnit
  bus : Bus
  faults : FaultUnit
  freeDraws : Nat
  deriving DecidableEq, Repr

/-- 00:00:00:00. -/
def zeroTimecode : Timecode :=
  { hh := ⟨0, 0⟩, mm := ⟨0, 0⟩, ss := ⟨0, 0⟩, ff := ⟨0, 0⟩ }

/-- A port after reset (R156). -/
def Port.reset : Port :=
  { link := .closed, badRun := 0, overrun := 0, rx := [], tx := [], noticesLost := false,
    interval := none, countdown := 0, line := [] }

/-- An authority record after reset (R15). -/
def Authority.reset : Authority := { owner := none, yielding := false, waiting := [] }

/-- A joystick record after reset (R33). -/
def Joystick.reset : Joystick := { sample := PerAxis.fill 0, arrival := none, stale := .stale }

/-- A blend record after reset (R100). -/
def Blend.reset : Blend :=
  { mode := .hold, base := 0, trim := 0, weight := 0, step := 1, live := 0, preset := 0 }

/-- A coupling entry after reset (R105). -/
def Coupling.reset : Coupling :=
  { enabled := false, source := .track, target := .swing, gain := 0, reference := 0 }

/-- The timecode unit after reset (R118, R119). -/
def TimecodeUnit.reset : TimecodeUnit :=
  { counter := zeroTimecode, run := .stopped, period := 0, captured := none, lock := .noReference,
    good := 0 }

/-- The per-axis drive items after reset (R135). -/
def Drive.reset : Drive :=
  { enable := .released, feedback := 0, state := .notReady, echo := .none, silent := 0, following := 0,
    sent := none, sentBefore := none }

/-- The drive bus interface after reset (R130, R134, R135, R141). -/
def Bus.reset : Bus :=
  { state := .stopped, frameNumber := 0#32, sequence := 0#8, syncCounter := 0, capturedSync := none,
    sync := .idle, edgeSeen := false, syncPulses := 0,
    slotWords := Vector.replicate 16 none, latch := true, drives := PerAxis.fill Drive.reset }

/-- A fault source after reset (R143). -/
def SourceState.reset : SourceState := { flag := false, axes := 0#8 }

/-- The fault control unit after reset (R154). -/
def FaultUnit.reset : FaultUnit :=
  { sources := Vector.replicate 16 SourceState.reset, first := none, escalation := none,
    safeStop := .released, cause := .reset, stopTimer := none, estopActive := false }

/-- The start-up controller after a POWER_ON reset, the power-up hold running (R169, R170; log entries 3,
5 and 18 name the values the spec does not give). -/
def Startup.reset : Startup :=
  { phase := .hold, cause := .powerOn, saveInterrupted := false, source := .defaults,
    mode := .supervised, resetLow := false, supplyLow := false }

/-- The part right after a POWER_ON reset, before the power-up hold has ended. -/
def State.reset : State :=
  { pending := []
    timebase := { ms := 0, counts := 0 }
    startup := Startup.reset
    save := none
    memory := ConfigImage.unwritten
    settings := Settings.builtIn
    store := PresetStore.cleared
    ports := PerMaster.fill Port.reset
    authority := PerAxis.fill Authority.reset
    joysticks := PerMaster.fill Joystick.reset
    cache := []
    queue := []
    nextMoveId := 1
    blend := PerAxis.fill Blend.reset
    couplings := Vector.replicate 4 Coupling.reset
    demand := PerAxis.fill { d1 := 0, d2 := 0 }
    clamped := PerAxis.fill false
    armed := Vector.replicate 8 false
    timecode := TimecodeUnit.reset
    bus := Bus.reset
    faults := FaultUnit.reset
    freeDraws := 0 }

end Sys2Proof.Machine
end

