-- ==== Sys2Proof/Machine/Ops.lean ====
section
/-! DEFINITION. The operations shared by the meanings: numbered tables, the clock, the link ports, what an
event answers, and the handing of a request from its port (R160). -/

namespace Sys2Proof.Machine

/-! ## Numbers and tables -/

/-- A clamp leaves a value inside its range unchanged and replaces a value outside it with the nearer end
(R7). -/
def clampTo (lo hi v : Int) : Int := if v < lo then lo else if hi < v then hi else v

/-- Whether a value lies within a range, both ends included. -/
def within (lo hi v : Int) : Bool := decide (lo ≤ v) && decide (v ≤ hi)

/-- Whether a number lies within a range, both ends included. -/
def numberWithin (lo hi n : Nat) : Bool := decide (lo ≤ n) && decide (n ≤ hi)

/-- ceil(n / d) for whole numbers. -/
def ceilDiv (n d : Nat) : Nat := (n + d - 1) / d

/-- The entries of the named axes replaced by a rule applied to each. -/
def mapAt {α : Type} (x : AxisSet) (f : α → α) (t : PerAxis α) : PerAxis α :=
  PerAxis.ofFn fun a => if AxisSet.has x a then f (t.get a) else t.get a

/-- What number k reads as in a table whose unlisted entries read as d. -/
def readAt {α : Type} (d : α) (k : Nat) : Sparse α → α
  | [] => d
  | (j, v) :: rest => if j = k then v else readAt d k rest

/-- The table without number k. -/
def eraseAt {α : Type} (k : Nat) : Sparse α → Sparse α
  | [] => []
  | (j, v) :: rest => if j = k then rest else (j, v) :: eraseAt k rest

/-- The table with number k put in its place in rising order, where k is not listed. -/
def insertAt {α : Type} (k : Nat) (v : α) : Sparse α → Sparse α
  | [] => [(k, v)]
  | (j, w) :: rest => if k < j then (k, v) :: (j, w) :: rest else (j, w) :: insertAt k v rest

/-- The table with number k reading as v; the value an unlisted entry has is not listed. -/
def writeAt {α : Type} [DecidableEq α] (d : α) (k : Nat) (v : α) (t : Sparse α) : Sparse α :=
  if v = d then eraseAt k t else insertAt k v (eraseAt k t)

/-- The canonical form of a table of n entries: numbers rising and below n, no entry listed that reads as
an unlisted one. -/
def tableWf {α : Type} [DecidableEq α] (d : α) (n : Nat) : Sparse α → Bool
  | [] => true
  | (k, v) :: rest =>
    decide (k < n) && decide (v ≠ d) && rest.all (fun e => decide (k < e.1)) && tableWf d n rest

/-! ## Reading the state -/

/-- Whether start-up has reached READY (R170). -/
def ready (s : State) : Bool := s.startup.phase == .ready

/-- Whether a master holds the supervisor's privileges (R161). -/
def actsAsSupervisor (s : State) (m : Master) : Bool :=
  match s.startup.mode with
  | .supervised => m == .supervisor
  | .standalone => m == .consoleA

/-- The masters whose links are in use (R147, R156). -/
def linksInUse (s : State) : List Master :=
  match s.startup.mode with
  | .supervised => [.consoleA, .consoleB, .supervisor]
  | .standalone => [.consoleA, .consoleB]

/-- Whether an axis is ENABLED (R135). -/
def isEnabled (s : State) (a : Axis) : Bool := (s.bus.drives.get a).enable == .enabled

/-- The ENABLED axes. -/
def enabledSet (s : State) : AxisSet := AxisSet.ofTest (isEnabled s)

/-- The owner of an axis (R15). -/
def ownerOf (s : State) (a : Axis) : Option Master := (s.authority.get a).owner

/-- The axes a master owns. -/
def ownedBy (s : State) (m : Master) : AxisSet := AxisSet.ofTest fun a => ownerOf s a == some m

/-- Whether a move is active: RUNNING, GATED or STOPPING (R79). -/
def Move.active (m : Move) : Bool := m.state != .queued

/-- Whether a move is RUNNING or GATED. -/
def Move.live (m : Move) : Bool := m.state == .running || m.state == .gated

/-- Whether two axis sets share an axis. -/
def shares (x y : AxisSet) : Bool := x &&& y != 0#8

/-- D1 of an axis: its current output demand (R6). -/
def d1Of (s : State) (a : Axis) : Int := (s.demand.get a).d1

/-- The view of a master (R48). -/
def viewOf (s : State) (m : Master) : View := s.settings.views.get m

/-- The state with one more free value drawn. -/
def drawn (s : State) : State := { s with freeDraws := s.freeDraws + 1 }

/-! ## Rates (R118, R119) -/

/-- Video frames per second. -/
def framesPerSecond : Rate → Nat
  | .fps24 => 24 | .fps25 => 25 | .fps30 => 30

/-- The loss threshold of a rate in 0.1 µs (R119). -/
def lossThreshold : Rate → Nat
  | .fps24 => 625000 | .fps25 => 600000 | .fps30 => 499999

/-- The good window of a rate in 0.1 µs (R119). -/
def goodPeriod : Rate → Nat → Bool
  | .fps24, p => numberWithin 408334 425000 p
  | .fps25, p => numberWithin 392000 408000 p
  | .fps30, p => numberWithin 326667 339999 p

/-- The sync loss threshold in 0.1 µs: 1.5 times the configured frame period (R134). -/
def syncThreshold (s : State) : Nat := 15 * s.settings.period

/-! ## The clock -/

/-- The timebase after some counts of 0.1 µs: it runs from the end of the power-up hold (R15, R170). -/
def passTimebase (dt : Nat) (s : State) : State :=
  match s.startup.phase with
  | .inReset | .hold => s
  | .loading | .ready =>
    let total := s.timebase.counts + dt
    { s with timebase := { ms := s.timebase.ms + total / 10000, counts := total % 10000 } }

/-- The genlock period counter after some counts: held at 0 in NO_REFERENCE, and at the threshold (R119). -/
def passGenlock (dt : Nat) (s : State) : State :=
  if s.timecode.lock = .noReference then s
  else { s with timecode := { s.timecode with
          period := min (lossThreshold s.settings.rate) (s.timecode.period + dt) } }

/-- The sync counter after some counts: held at 0 in IDLE, and at the threshold (R134). -/
def passSync (dt : Nat) (s : State) : State :=
  if s.bus.sync = .idle then s
  else { s with bus := { s.bus with syncCounter := min (syncThreshold s) (s.bus.syncCounter + dt) } }

/-- The state after some counts of the oscillator in which nothing else happens. -/
def elapse (dt : Nat) (s : State) : State := passSync dt (passGenlock dt (passTimebase dt s))

/-- Milliseconds from now to a deadline, 0 once it is reached. -/
def leftUntil (s : State) (deadline : Nat) : Nat := deadline - s.timebase.ms

/-- Whether the timebase has reached a time. -/
def reached (s : State) (t : Nat) : Bool := decide (t ≤ s.timebase.ms)

/-! ## Link ports (R156, R163) -/

/-- The state with one port replaced. -/
def State.setPort (s : State) (m : Master) (p : Port) : State := { s with ports := s.ports.set m p }

/-- Whether a frame is a notice. -/
def LinkFrame.isNotice : LinkFrame → Bool
  | .reply _ _ => false
  | .notice _ => true

/-- How many notices a transmit queue holds. -/
def noticesHeld (tx : List LinkFrame) : Nat := (tx.filter LinkFrame.isNotice).length

/-- A notice addressed to a master. -/
structure Post where
  dest : Master
  notice : Notice
  deriving DecidableEq, Repr

/-- A port given a notice (R163): placed at the end of the queue when it holds fewer than 4 notices and
fewer than 8 frames, else dropped with the notices-lost flag set. A CLOSED port takes none (R156). -/
def Port.take (p : Port) (n : Notice) : Port :=
  match p.link with
  | .closed => p
  | .opened =>
    if noticesHeld p.tx < 4 ∧ p.tx.length < 8 then { p with tx := p.tx ++ [.notice n] }
    else { p with noticesLost := true }

/-- The state with one notice placed. -/
def placeNotice (s : State) (post : Post) : State :=
  s.setPort post.dest ((s.ports.get post.dest).take post.notice)

/-- The state with notices placed in order, each judged for a place as it comes (R163). -/
def placeNotices (posts : List Post) (s : State) : State := posts.foldl placeNotice s

/-- A notice for a master, with a copy for the supervisor: one copy where it is the master concerned, none
in standalone mode (R27, R99). -/
def withSupervisor (s : State) (m : Master) (n : Notice) : List Post :=
  match s.startup.mode with
  | .standalone => [⟨m, n⟩]
  | .supervised => if m = .supervisor then [⟨m, n⟩] else [⟨m, n⟩, ⟨.supervisor, n⟩]

/-! ## What an event answers -/

/-- A state and the notices of the event so far, in the order they are to be placed. -/
structure Emit where
  state : State
  posts : List Post
  deriving DecidableEq, Repr

/-- An event's part that sends nothing. -/
def quiet (s : State) : Emit := { state := s, posts := [] }

/-- One part of an event after another. -/
def Emit.andThen (e : Emit) (f : State → Emit) : Emit :=
  { state := (f e.state).state, posts := e.posts ++ (f e.state).posts }

/-- A part of an event taken for each item of a list in order. -/
def emitEach {α : Type} : List α → (α → State → Emit) → State → Emit
  | [], _, s => quiet s
  | x :: rest, f, s => (f x s).andThen (emitEach rest f)

/-- The state with the event's notices placed. -/
def Emit.settle (e : Emit) : State := placeNotices e.posts e.state

/-- What a taken request gives: the state, its reply, and the notices it causes. -/
structure Response where
  state : State
  reply : Reply
  posts : List Post
  deriving DecidableEq, Repr

/-- A request accepted with data. -/
def accept (s : State) (d : ReplyData) : Response :=
  { state := s, reply := { refusal := none, omitted := 0, data := d }, posts := [] }

/-- A request accepted with data and with notices to follow its reply (R29, R162). -/
def acceptWith (e : Emit) (d : ReplyData) : Response :=
  { state := e.state, reply := { refusal := none, omitted := 0, data := d }, posts := e.posts }

/-- A request accepted with a list of items of which the first n fit the reply (R162). -/
def acceptItems {α : Type} (s : State) (n : Nat) (l : List α) (d : List α → ReplyData) : Response :=
  { state := s, reply := { refusal := none, omitted := l.length - n, data := d (l.take n) }, posts := [] }

/-- A request refused as a whole (R162): nothing changes. -/
def refuse (s : State) (c : RefusalCode) : Response :=
  { state := s, reply := { refusal := some c, omitted := 0, data := .none }, posts := [] }

/-- The state with a reply at the end of the requester's transmit queue (R163). -/
def queueReply (h : Header) (r : Reply) (s : State) : State :=
  let p := s.ports.get h.link
  s.setPort h.link { p with tx := p.tx ++ [.reply h.tag r] }

/-- The state a response leaves: the reply is queued before any notice the request causes (R162). -/
def answer (h : Header) (r : Response) : State := placeNotices r.posts (queueReply h r.reply r.state)

/-! ## Requests at their port (R158 to R161) -/

/-- A good frame's request put into the receive buffer, or dropped with the overrun counted (R158, R159). -/
def receiveRequest (m : Master) (i : Instr) (s : State) : State :=
  let p := s.ports.get m
  if p.rx.length < 4 then s.setPort m { p with badRun := 0, rx := p.rx ++ [i] }
  else s.setPort m { p with badRun := 0, overrun := min 65535 (p.overrun + 1) }

/-- The port of a request takes it (R159, R160). A CLOSED port discards it. The request at the head of the
receive buffer is handed when the transmit queue holds fewer than 8 frames, and waits otherwise. A request
that finds an empty buffer and a place in the transmit queue arrives and is handed in the one event. Any
other joins the buffer (log entry 2). `i` is the request as a buffer holds it, `act` its taking. -/
def handed (h : Header) (i : Instr) (act : State → State) (s : State) :
    Host.Outcome State Fault Refusal :=
  let s := elapse h.elapsed s
  let p := s.ports.get h.link
  match p.link with
  | .closed => .next s
  | .opened =>
    if p.rx.head? = some i then
      if p.tx.length < 8 then .next (act (s.setPort h.link { p with rx := p.rx.tail })) else .next s
    else if p.rx = [] ∧ p.tx.length < 8 then .next (act (s.setPort h.link { p with badRun := 0 }))
    else .next (receiveRequest h.link i s)

/-- A request that is answered by a response. -/
def request (h : Header) (i : Instr) (body : State → Response) (s : State) :
    Host.Outcome State Fault Refusal :=
  handed h i (fun s => answer h (body s)) s

/-- A request of kinds 41 to 59: refused NOT_PERMITTED by the port before any other check (R161). -/
def privileged (h : Header) (body : State → Response) (s : State) : Response :=
  if actsAsSupervisor s h.link then body s else refuse s .notPermitted

/-- An event of the block: the counts before it pass, then it happens whole and its notices are placed. -/
def event (dt : Nat) (f : State → Emit) (s : State) : Host.Outcome State Fault Refusal :=
  .next (f (elapse dt s)).settle

end Sys2Proof.Machine
end

