-- ==== Sys2Proof/Machine/Flags.lean ====
section
/-! DEFINITION. Flags and lines: the fault flags with what reads them continuously (R143, R144, R147,
R148), the conditions FAULT CLEAR reads (R143, R152), the FAULT output and the tally lines (R168). -/

namespace Sys2Proof.Machine

/-- The state of a fault source. -/
def sourceState (s : State) (src : FaultSource) : SourceState := s.faults.sources[src.id]

/-- Whether the flag of a source is set. -/
def flagSet (s : State) (src : FaultSource) : Bool := (sourceState s src).flag

/-- Whether any flag is set. -/
def anyFlag (s : State) : Bool := FaultSource.all.any (flagSet s)

/-- The action set of a source: those of ESTOP and STOP_OVERRUN are fixed (R143, R144). RELEASE, the action
of ESTOP alone, is carried out by the raise itself (R145 step 5) and is no member of a set here (log entry 28). -/
def actionSet (s : State) : FaultSource → ActionSet
  | .estop | .stopOverrun => { ActionSet.none with notice := true, faultLine := true }
  | src => s.settings.actions[src.id]

/-- The FAULT output: asserted while a set flag belongs to a source with FAULT_LINE (R147). -/
def faultLine (s : State) : Bool :=
  FaultSource.all.any fun src => flagSet s src && (actionSet s src).faultLine

/-- Whether a set flag belongs to a source with DELAY (R148). -/
def delayFlag (s : State) : Bool :=
  FaultSource.all.any fun src => flagSet s src && (actionSet s src).delay

/-- The sources whose set flag refuses RELEASE CLEAR (R153), in id order (log entry 29). -/
def stopFlags (s : State) : List FaultSource :=
  FaultSource.all.filter fun src => flagSet s src && (actionSet s src).safeStop

/-- The axes of a DRIVE_FAULT recorded set whose drive is in FAULT (R143). -/
def drivesInFault (s : State) (x : AxisSet) : Bool :=
  (AxisSet.members x).any fun a => (s.bus.drives.get a).state == .fault

/-- Whether the condition of a source persists (R143). -/
def conditionPersists (s : State) : FaultSource → Bool
  | .estop => s.faults.estopActive
  | .busSyncLost => s.bus.sync == .lost
  | .driveFault => drivesInFault s (sourceState s .driveFault).axes
  | .staleA => s.joysticks.consoleA.stale == .stale
  | .staleB => s.joysticks.consoleB.stale == .stale
  | .staleS => s.joysticks.supervisor.stale == .stale
  | .genlockLost => s.timecode.lock == .lost
  | .stopOverrun | .driveSilent | .following | .zoneEntry | .axisLimit | .linkAError | .linkBError
  | .linkSError | .configInvalid => false

/-- The state with the record of one source replaced. -/
def State.setSource (s : State) (src : FaultSource) (v : SourceState) : State :=
  { s with faults := { s.faults with sources := s.faults.sources.set src.id v } }

/-- The escalation timer judged again: it stops when no set flag belongs to a source with DELAY (R148). -/
def judgeEscalation (s : State) : State :=
  if delayFlag s then s else { s with faults := { s.faults with escalation := none } }

/-- Tally line of an axis (R168): lit in standalone mode while the axis is fitted and belongs to an active
move. -/
def tallyLit (s : State) (a : Axis) : Bool :=
  s.startup.mode == .standalone && AxisSet.has s.settings.fitted a &&
    s.queue.any fun m => Move.active m && AxisSet.has m.axes a

/-- The tally lines T0 to T7. -/
def tally (s : State) : AxisSet := AxisSet.ofTest (tallyLit s)

end Sys2Proof.Machine
end

