-- ==== Sys2Proof/Machine/Moves.lean ====
section
/-! DEFINITION. What other blocks do to modes and moves: putting axes into HOLD or LIVE (R95, R107, R112,
R114), withdrawal (R94) and removal from the queue (R95, R99). -/

namespace Sys2Proof.Machine

/-! ## Modes -/

/-- HOLD, with trim offset and handoff weight at 0 (R26, R107, R114). -/
def Blend.toHold (b : Blend) : Blend := { b with mode := .hold, trim := 0, weight := 0 }

/-- LIVE on the base demand stage 5 left (R107): trim offset and handoff weight become 0. -/
def Blend.toLive (b : Blend) : Blend := { b with mode := .live, trim := 0, weight := 0 }

/-- The end of a handoff: LIVE with base demand equal to the live track (R112). -/
def Blend.endHandoff (b : Blend) : Blend :=
  { b with mode := .live, base := b.live, trim := 0, weight := 0 }

/-- The state with the blend record of one axis replaced. -/
def State.setBlend (s : State) (a : Axis) (b : Blend) : State := { s with blend := s.blend.set a b }

/-- Some axes put into HOLD. -/
def holdAxes (x : AxisSet) (s : State) : State := { s with blend := mapAt x Blend.toHold s.blend }

/-- The axes of a set that are in HANDOFF. -/
def handoffAxes (s : State) (x : AxisSet) : AxisSet :=
  AxisSet.ofTest fun a => AxisSet.has x a && (s.blend.get a).mode == .handoff

/-- Handoffs on some axes ended by their move (R91, R95). -/
def endHandoffs (x : AxisSet) (s : State) : State :=
  { s with blend := mapAt (handoffAxes s x) Blend.endHandoff s.blend }

/-! ## Moves -/

/-- The move with an id (R80). -/
def findMove (s : State) (id : Nat) : Option Move := s.queue.find? fun m => m.id == id

/-- The queue with the move of an id replaced. -/
def replaceMove (id : Nat) (f : Move → Move) (q : List Move) : List Move :=
  q.map fun m => if m.id = id then f m else m

/-- An axis set leaves a move with its start positions and targets (R78, R94). -/
def Move.withdraw (x : AxisSet) (m : Move) : Move :=
  { m with
    axes := m.axes &&& ~~~x
    segment := m.segment.map fun g =>
      { g with paths := PerAxis.ofFn fun a => if AxisSet.has x a then none else g.paths.get a } }

/-- MOVE_DONE to the requester and the supervisor (R99). -/
def moveDonePosts (s : State) (o : Move → MoveOutcome) (m : Move) : List Post :=
  withSupervisor s m.requester (.moveDone m.id m.record (o m))

/-- The moves that satisfy a test leave the queue, in queue order, each with its outcome (R95). -/
def removeMoves (p : Move → Bool) (o : Move → MoveOutcome) (s : State) : Emit :=
  { state := { s with queue := s.queue.filter fun m => !(p m) }
    posts := (s.queue.filter p).flatMap (moveDonePosts s o) }

/-- Whether a move is left with no axes. -/
def Move.emptied (m : Move) : Bool := m.axes == 0#8

/-- Some axes withdrawn from every move that holds them; then every move left with no axes is removed, its
outcome given by the event (R94). -/
def withdrawWith (x : AxisSet) (o : Move → MoveOutcome) (s : State) : Emit :=
  removeMoves Move.emptied o { s with queue := s.queue.map (Move.withdraw x) }

/-- Withdrawal other than by ABORT (R94). -/
def withdraw (x : AxisSet) (s : State) : Emit := withdrawWith x (fun _ => .withdrawn) s

/-- Whether an axis belongs to an active move. -/
def inActiveMove (s : State) (a : Axis) : Bool :=
  s.queue.any fun m => Move.active m && AxisSet.has m.axes a

/-- Whether an axis belongs to a RUNNING or GATED move. -/
def inLiveMove (s : State) (a : Axis) : Bool :=
  s.queue.any fun m => Move.live m && AxisSet.has m.axes a

/-- Whether a move holds a record's number (R54 stage 5). -/
def recordHeld (s : State) (n : Nat) : Bool := s.queue.any fun m => m.record == n

/-! ## Coupling (R105) -/

/-- The four entry numbers of the coupling table. -/
def couplingNumbers : List (Fin 4) := [0, 1, 2, 3]

/-- The term of a coupling entry from the source's D1 as it stands. -/
def couplingTerm (s : State) (c : Coupling) : Int :=
  (c.gain * (d1Of s c.source - c.reference)).tdiv 256

/-- The coupling offset K of an axis, from the demand histories as they stand. -/
def couplingOffset (s : State) (a : Axis) : Int :=
  (couplingNumbers.map fun n =>
    if s.couplings[n].enabled ∧ s.couplings[n].target = a then couplingTerm s s.couplings[n] else 0).sum

end Sys2Proof.Machine
end

