-- ==== Sys2Proof/Machine/Operands.lean ====
section
/-! DEFINITION. The operand forms of 11.7.2: what the octets of an argument name, and the checks of axis
sets, cue addresses and timecodes that several requests share. -/

namespace Sys2Proof.Machine

/-! ## Octets that name something (11.7.2) -/

/-- A flag octet: 0 clear, 1 set. -/
def flagOf : Nat → Option Bool
  | 0 => some false | 1 => some true | _ => none

/-- A master octet: 1 CONSOLE_A, 2 CONSOLE_B, 3 SUPERVISOR; 0 is NONE and names no master. -/
def masterOf : Nat → Option Master
  | 1 => some .consoleA | 2 => some .consoleB | 3 => some .supervisor | _ => none

/-- A view octet, in the order A, B, S of R53 (log entry 10). -/
def viewNamed : Nat → Option Master
  | 0 => some .consoleA | 1 => some .consoleB | 2 => some .supervisor | _ => none

/-- An interpolation profile octet, in the order of R45. -/
def shapeOf : Nat → Option Shape
  | 0 => some .linear | 1 => some .ease | 2 => some .dwell | _ => none

/-- The modes SET MODE asks for, in the order of R107. -/
def askedMode : Nat → Option Mode
  | 0 => some .live | 1 => some .hold | 2 => some .trim | _ => none

/-- A timecode rate (R127). -/
def rateOf : Nat → Option Rate
  | 24 => some .fps24 | 25 => some .fps25 | 30 => some .fps30 | _ => none

/-- A bus role octet, in the order of R130. -/
def roleOf : Nat → Option BusRole
  | 0 => some .frameMaster | 1 => some .follower | _ => none

/-- A slot octet: the kind in the high four bits, the axis number in the low four (11.7.2). The axis number
of an UNUSED slot is not read (log entry 24). -/
def slotOf (o : Nat) : Option Slot :=
  match o / 16, Axis.ofNumber? (o % 16) with
  | 0, _ => some .unused
  | 1, some a => some (.demand a)
  | 2, some a => some (.feedback a)
  | _, _ => none

/-- An action set octet: bit 0 NOTICE, 1 HOLD, 2 DELAY, 3 SAFE_STOP, 4 FAULT_LINE, no higher bit. -/
def actionsOf (o : Nat) : Option ActionSet :=
  if o < 32 then
    some { notice := o.testBit 0, hold := o.testBit 1, delay := o.testBit 2, safeStop := o.testBit 3,
           faultLine := o.testBit 4 }
  else none

/-- A stale limit octet: 0 for OFF, otherwise 5 to 250 ms (R33, R39). -/
def limitOf (o : Nat) : Option (Option Nat) :=
  if o = 0 then some none else if numberWithin 5 250 o then some (some o) else none

/-- A report interval octet: 0 for OFF, otherwise 1 to 255 frames (R166). -/
def intervalOf (o : Nat) : Option (Option Nat) :=
  if o = 0 then some none else if o ≤ 255 then some (some o) else none

/-- A bank target from its kind octet and the fields carried for the kind (R47, R51). -/
def bankTargetOf : Nat → List Nat → Option BankTarget
  | 0, [] => some .empty
  | 1, [n] => if n < 32 then some (.list n) else none
  | 2, [b, c] => if b < 256 ∧ numberWithin 1 16 c then some (.run b c) else none
  | _, _ => none

/-! ## Axis sets (R1) -/

/-- The request-level check of an axis set: BAD_AXIS before any other check that names the axis, and
BAD_ARGUMENT for the empty set (R1). -/
def axisSetCheck (s : State) (x : AxisSet) : Option RefusalCode :=
  if x &&& ~~~s.settings.fitted ≠ 0#8 then some .badAxis
  else if x = 0#8 then some .badArgument
  else none

/-- Whether an axis number names an axis that is not fitted. A number outside 0 to 7 names none (log entry
11). -/
def namesUnfitted (s : State) (n : Nat) : Bool :=
  match Axis.ofNumber? n with
  | some a => !(AxisSet.has s.settings.fitted a)
  | none => false

/-- How many axes a set names. -/
def axisCount (x : AxisSet) : Nat := (AxisSet.members x).length

/-! ## Positions and keyframes -/

/-- Whether a value is a position (R3). -/
def isPosition (v : Int) : Bool := within positionMin positionMax v

/-- Whether a value lies within an axis's soft limits. -/
def softOk (s : State) (a : Axis) (v : Int) : Bool :=
  within (s.settings.limits.get a).softMin (s.settings.limits.get a).softMax v

/-- Values listed in channel order laid on the axes of a set. -/
def spread (x : AxisSet) (vs : List Int) : PerAxis (Option Int) :=
  PerAxis.ofFn fun a =>
    if AxisSet.has x a then vs[(AxisSet.members x).idxOf a]? else none

/-- Axis and position pairs laid on their axes. -/
def spreadPairs (ps : List (Nat × Int)) : PerAxis (Option Int) :=
  PerAxis.ofFn fun a => (ps.find? fun p => p.1 == a.number).map Prod.snd

/-- D1 of each axis of a set, as CAPTURE takes it (R56). -/
def capturedTargets (s : State) (x : AxisSet) : PerAxis (Option Int) :=
  PerAxis.ofFn fun a => if AxisSet.has x a then some (d1Of s a) else none

/-- Whether the D1 of every axis of a set lies within its soft limits (R56, R57). -/
def capturable (s : State) (x : AxisSet) : Bool := (AxisSet.members x).all fun a => softOk s a (d1Of s a)

/-- Bounds listed in channel order laid on the axes of a zone, 0 to 0 elsewhere. -/
def spreadBounds (x : AxisSet) (bs : List (Int × Int)) : PerAxis Bounds :=
  PerAxis.ofFn fun a =>
    match if AxisSet.has x a then bs[(AxisSet.members x).idxOf a]? else none with
    | some b => { lo := b.1, hi := b.2 }
    | none => { lo := 0, hi := 0 }

/-! ## Timecodes (R118) -/

/-- The value of a BCD field. -/
def bcdValue (b : Bcd) : Nat := 10 * b.tens + b.ones

/-- Whether a field is valid: both digits 0 to 9 and the value below the modulus (R118). -/
def bcdValid (modulus : Nat) (b : Bcd) : Bool :=
  decide (b.tens ≤ 9) && decide (b.ones ≤ 9) && decide (bcdValue b < modulus)

/-- Whether every field of a timecode is valid at a rate (R118). -/
def timecodeValid (r : Rate) (t : Timecode) : Bool :=
  bcdValid 24 t.hh && bcdValid 60 t.mm && bcdValid 60 t.ss && bcdValid (framesPerSecond r) t.ff

/-- The position in day of a timecode at a rate (R118). -/
def positionInDay (r : Rate) (t : Timecode) : Nat :=
  ((bcdValue t.hh * 60 + bcdValue t.mm) * 60 + bcdValue t.ss) * framesPerSecond r + bcdValue t.ff

/-- The cue an argument names, in the order NOW, TIMECODE, GO of R81. -/
def cueOf (c : CueArg) : Option Cue :=
  match c.kind with
  | 0 => some .now
  | 1 => some (.timecode c.timecode)
  | 2 => some .go
  | _ => none

end Sys2Proof.Machine
end

