-- ==== Sys2Proof/Machine/Fault.lean ====
section
/-! DEFINITION. Fault control (chapter 10): the raise of a source and its actions, the safe stop, the two
timers, the E-STOP input, and the requests of the unit. -/

namespace Sys2Proof.Machine

/-! ## Safe stop (R97, R115, R141, R149, R150, R151) -/

/-- The state with the safe-stop state and the stop timer replaced. -/
def setSafeStop (v : SafeStop) (timer : Option Nat) (s : State) : State :=
  { s with faults := { s.faults with safeStop := v, stopTimer := timer } }

/-- The state with the stop cause recorded. -/
def setStopCause (c : StopCause) (s : State) : State := { s with faults := { s.faults with cause := c } }

/-- Every drive enable of all eight channels becomes RELEASED and the release latch is set (R141). -/
def releaseDrives (s : State) : State :=
  { s with bus := { s.bus with
      latch := true
      drives := mapAt AxisSet.full (fun d => { d with enable := .released }) s.bus.drives } }

/-- What safe-stop entry makes of a move that is not QUEUED (R97). -/
def Move.stopForFault (m : Move) : Move := { m with state := .stopping, stopOutcome := some .fault }

/-- Safe-stop entry on the queue (R97), then on the axes (R115): QUEUED moves are removed FAULT, the others
become STOPPING with stop outcome FAULT, and every axis goes to HOLD. -/
def haltEverything (s : State) : Emit :=
  let e := removeMoves (fun m => m.state == .queued) (fun _ => .fault) s
  { e with state := holdAxes AxisSet.full { e.state with queue := e.state.queue.map Move.stopForFault } }

/-- Entry into RELEASED (R150): every drive is released, the latch is set, the stop timer stops, and every
move still in the queue is removed FAULT. -/
def enterReleased (s : State) : Emit :=
  removeMoves (fun _ => true) (fun _ => .fault) (setSafeStop .released none (releaseDrives s))

/-- Whether any fitted axis is ENABLED. -/
def anyFittedEnabled (s : State) : Bool := shares s.settings.fitted (enabledSet s)

/-- Steps 3 and 4 of safe-stop entry (R149): the stop begins, or is over at once. -/
def beginStop (s : State) : Emit :=
  if anyFittedEnabled s then
    quiet (setSafeStop .stopping (some (s.timebase.ms + 100 * s.settings.stopTime)) s)
  else enterReleased s

/-- Safe-stop entry, taken from NORMAL alone (R149). -/
def safeStopEntry (c : StopCause) (s : State) : Emit :=
  if s.faults.safeStop = .normal then
    (haltEverything s).andThen fun s => beginStop (setStopCause c s)
  else quiet s

/-- The RELEASE action of ESTOP (R151): from NORMAL and STOPPING straight to RELEASED. -/
def releaseAction (s : State) : Emit :=
  match s.faults.safeStop with
  | .normal => (haltEverything s).andThen fun s => enterReleased (setStopCause .estop s)
  | .stopping => enterReleased (setStopCause .estop s)
  | .released => quiet s

/-! ## The raise (R145 to R148) -/

/-- What a raise carries when it carries nothing. -/
def RaiseInfo.bare : RaiseInfo := { axes := none, zone := none, master := none }

/-- A raise with an axis set. -/
def RaiseInfo.ofAxes (x : AxisSet) : RaiseInfo := { RaiseInfo.bare with axes := some x }

/-- A raise with a master. -/
def RaiseInfo.ofMaster (m : Master) : RaiseInfo := { RaiseInfo.bare with master := some m }

/-- Steps 1 and 2 of a raise: the first-fault record is captured when every flag is clear; the flag is set
and the raise's axes join the recorded set. -/
def raiseRecord (src : FaultSource) (info : RaiseInfo) (s : State) : State :=
  let captured : State :=
    if anyFlag s then s
    else { s with faults := { s.faults with
            first := some { source := src, info := info, timecode := s.timecode.counter,
                            frameNumber := s.bus.frameNumber, time := s.timebase.ms } } }
  captured.setSource src
    { flag := true, axes := (sourceState s src).axes ||| info.axes.getD 0#8 }

/-- The axes a HOLD action applies to (R146). ESTOP and STOP_OVERRUN never carry HOLD. -/
def holdScope (src : FaultSource) (info : RaiseInfo) (s : State) : AxisSet :=
  match src with
  | .driveSilent | .driveFault | .following | .axisLimit | .zoneEntry => info.axes.getD 0#8
  | .linkAError | .linkBError | .linkSError | .staleA | .staleB | .staleS =>
    match info.master with
    | some m => ownedBy s m
    | none => 0#8
  | .busSyncLost | .genlockLost | .configInvalid => s.settings.fitted
  | .estop | .stopOverrun => 0#8

/-- The HOLD action on a set of axes (R114): an axis that is not fitted is not changed. -/
def holdAction (x : AxisSet) (s : State) : Emit :=
  withdraw (x &&& s.settings.fitted) (holdAxes (x &&& s.settings.fitted) s)

/-- The DELAY action: the escalation timer starts if it is stopped (R148). -/
def startEscalation (s : State) : State :=
  match s.faults.escalation with
  | some _ => s
  | none => { s with faults := { s.faults with
                escalation := some (s.timebase.ms + 10 * s.settings.escalationDelay) } }

/-- The NOTICE action: a FAULT notice on every link in use (R147). -/
def faultPosts (src : FaultSource) (info : RaiseInfo) (first : Bool) (s : State) : List Post :=
  (linksInUse s).map fun m => ⟨m, .fault src info first⟩

/-- A part of an event taken when a condition holds. -/
def whenever (b : Bool) (f : State → Emit) (s : State) : Emit := if b then f s else quiet s

/-- Steps 3 to 7 of a raise. On each link the FAULT notice comes before the MOVE_DONE notices of the same
raise (R147). -/
def raiseActions (src : FaultSource) (info : RaiseInfo) (first : Bool) (s : State) : Emit :=
  let acts := actionSet s src
  let e := ((whenever acts.hold (holdAction (holdScope src info s)) s).andThen
      (whenever acts.safeStop (safeStopEntry (.source src)))).andThen
      (whenever (src == .estop) releaseAction)
  { state := if acts.delay then startEscalation e.state else e.state
    posts := (if acts.notice then faultPosts src info first s else []) ++ e.posts }

/-- A raise, taken whole within the event that detects the condition (R145). The FAULT line, step 8, is
computed from the flags (`faultLine`). -/
def raise (src : FaultSource) (info : RaiseInfo) (s : State) : Emit :=
  raiseActions src info (!anyFlag s) (raiseRecord src info s)

/-! ## Timers and the E-STOP input -/

/-- The escalation timer expires (R148), also where a RELEASE CLEAR found it running (log entry 34). -/
def escalationExpiry (s : State) : Emit :=
  match s.faults.escalation with
  | none => quiet s
  | some t =>
    if reached s t then
      safeStopEntry .escalation { s with faults := { s.faults with escalation := none } }
    else quiet s

/-- The stop timer expires in STOPPING: STOP_OVERRUN, then entry into RELEASED (R150). -/
def stopTimerExpiry (s : State) : Emit :=
  match s.faults.stopTimer with
  | none => quiet s
  | some t =>
    if s.faults.safeStop = .stopping ∧ reached s t then
      (raise .stopOverrun RaiseInfo.bare s).andThen enterReleased
    else quiet s

/-- The E-STOP input level (R143). -/
def setEstop (b : Bool) (s : State) : State := { s with faults := { s.faults with estopActive := b } }

/-- The E-STOP input becomes active: every drive is released and the latch set at once, and ESTOP is raised
(R141, R151). Before READY the input raises nothing (R170). An input already active does not become so. -/
def estopActivates (s : State) : Emit :=
  if s.faults.estopActive then quiet s
  else
    let s := releaseDrives (setEstop true s)
    whenever (ready s) (raise .estop RaiseInfo.bare) s

/-- ESCALATION_EXPIRY. -/
def execEscalationExpiry (dt : Nat) (s : State) : Host.Outcome State Fault Refusal :=
  event dt escalationExpiry s

/-- STOP_TIMER_EXPIRY. -/
def execStopTimerExpiry (dt : Nat) (s : State) : Host.Outcome State Fault Refusal :=
  event dt stopTimerExpiry s

/-- ESTOP. -/
def execEstop (dt : Nat) (s : State) : Host.Outcome State Fault Refusal := event dt estopActivates s

/-- ESTOP_INACTIVE: the condition of ESTOP ends and nothing else changes (R141, R143). -/
def execEstopInactive (dt : Nat) (s : State) : Host.Outcome State Fault Refusal :=
  event dt (fun s => quiet (setEstop false s)) s

/-! ## Requests (R144, R150, R152, R153, R155) -/

/-- SET FAULT ACTIONS (R144). -/
def setFaultActions (source actions : Nat) (s : State) : Response :=
  match FaultSource.ofId? source, actionsOf actions with
  | some src, some acts =>
    if src = .estop ∨ src = .stopOverrun then refuse s .badArgument
    else
      accept (judgeEscalation
        { s with settings := { s.settings with actions := s.settings.actions.set src.id acts } }) .none
  | _, _ => refuse s .badArgument

/-- SET FAULT TIMERS (R150): a running timer keeps its expiry. -/
def setFaultTimers (delay stopTime : Nat) (s : State) : Response :=
  if numberWithin 1 1000 delay && numberWithin 1 100 stopTime then
    accept { s with settings := { s.settings with escalationDelay := delay, stopTime := stopTime } } .none
  else refuse s .badArgument

/-- One named source of a FAULT CLEAR (R152): a clear flag stays clear, and a set flag whose condition
persists stays set. -/
def clearSource (src : FaultSource) (s : State) : State :=
  if flagSet s src && !(conditionPersists s src) then s.setSource src SourceState.reset else s

/-- The first-fault record emptied when every flag is clear (R145, R152). -/
def judgeFirstFault (s : State) : State :=
  if anyFlag s then s else { s with faults := { s.faults with first := none } }

/-- The sources a FAULT CLEAR names, in id order. -/
def namedSources (set : BitVec 16) : List FaultSource :=
  FaultSource.all.filter fun src => set.getLsbD src.id

/-- FAULT CLEAR (R152): the reply lists the named sources that stay set, in id order (log entry 29). -/
def faultClear (set : BitVec 16) (s : State) : Response :=
  if set = 0#16 then refuse s .badArgument
  else
    let cleared := (namedSources set).foldl (fun s src => clearSource src s) s
    accept (judgeFirstFault (judgeEscalation cleared))
      (.sources ((namedSources set).filter (flagSet cleared)))

/-- RELEASE CLEAR (R153): FAULTS_SET carries the list of the sources. Its checks come first in NORMAL with the
latch clear as well (log entry 29). An escalation timer that is running keeps running (log entry 34). -/
def releaseClear (s : State) : Response :=
  if s.faults.estopActive then refuse s .estopActive
  else if s.faults.safeStop = .stopping then refuse s .stopInProgress
  else if stopFlags s ≠ [] then
    { state := s, posts := []
      reply := { refusal := some .faultsSet, omitted := 0, data := .sources (stopFlags s) } }
  else
    accept { s with
      bus := { s.bus with latch := false }
      faults := { s.faults with safeStop := .normal } } .none

/-- What QUERY FAULTS returns (R155). An action set shows its members among the five (log entry 28). -/
def faultsReport (s : State) : FaultsReport :=
  { sources := s.faults.sources
    first := s.faults.first
    actions := FaultSource.all.map (actionSet s)
    escalationLeft := s.faults.escalation.map (leftUntil s)
    escalationDelay := s.settings.escalationDelay
    safeStop := s.faults.safeStop
    cause := s.faults.cause
    stopLeft := s.faults.stopTimer.map (leftUntil s)
    stopTime := s.settings.stopTime
    estopActive := s.faults.estopActive
    faultLine := faultLine s }

/-- SET_FAULT_ACTIONS. -/
def execSetFaultActions (h : Header) (source actions : Nat) (s : State) :
    Host.Outcome State Fault Refusal :=
  request h (.setFaultActions h.unstamped source actions) (privileged h (setFaultActions source actions)) s

/-- SET_FAULT_TIMERS. -/
def execSetFaultTimers (h : Header) (delay stopTime : Nat) (s : State) :
    Host.Outcome State Fault Refusal :=
  request h (.setFaultTimers h.unstamped delay stopTime) (privileged h (setFaultTimers delay stopTime)) s

/-- FAULT_CLEAR. -/
def execFaultClear (h : Header) (sources : BitVec 16) (s : State) : Host.Outcome State Fault Refusal :=
  request h (.faultClear h.unstamped sources) (privileged h (faultClear sources)) s

/-- RELEASE_CLEAR, accepted from every master. -/
def execReleaseClear (h : Header) (s : State) : Host.Outcome State Fault Refusal :=
  request h (.releaseClear h.unstamped) releaseClear s

/-- QUERY_FAULTS. -/
def execQueryFaults (h : Header) (s : State) : Host.Outcome State Fault Refusal :=
  request h (.queryFaults h.unstamped) (fun s => accept s (.faults (faultsReport s))) s

end Sys2Proof.Machine
end

