-- ==== Sys2Proof/Machine/Authority.lean ====
section
/-! DEFINITION. Axis authority (chapter 2): what each request finds on each named axis, the ownership
change with its effects in their order, and the expiry of a wait. -/

namespace Sys2Proof.Machine

/-- What a request of the authority table gives one axis: its outcome, the record after it, whether the
owner changed, and which of the notices of R27 the change sends. -/
structure Verdict where
  outcome : AxisOutcome
  record : Authority
  changed : Bool
  granted : Bool
  taken : Bool
  deriving DecidableEq, Repr

/-- An outcome that leaves the owner as it was. -/
def Verdict.keep (o : AxisOutcome) (r : Authority) : Verdict :=
  { outcome := o, record := r, changed := false, granted := false, taken := false }

/-- The record under a new owner (R24 step 1): the yield flag cleared, its entry gone from the list. -/
def Authority.giveTo (m : Master) (r : Authority) : Authority :=
  { owner := some m, yielding := false, waiting := r.waiting.filter fun e => e.waiter != m }

/-- The place of a master in a waiting list, 1 for the head, with its deadline (R17). -/
def placeOf (m : Master) (l : List WaitEntry) : Option (Nat × Nat) :=
  (l.find? fun e => e.waiter == m).map fun e => ((l.findIdx fun e => e.waiter == m) + 1, e.deadline)

/-! ## One axis of each request -/

/-- CLAIM on one axis (R17, R18). -/
def claimVerdict (now : Nat) (m : Master) (wait : Nat) (r : Authority) : Verdict :=
  match r.owner with
  | none =>
    { outcome := .granted, record := r.giveTo m, changed := true, granted := false, taken := false }
  | some o =>
    if o = m then .keep .owned r
    else if r.yielding then
      { outcome := .transferred, record := r.giveTo m, changed := true, granted := false, taken := true }
    else
      match placeOf m r.waiting with
      | some (place, deadline) => .keep (.alreadyWaiting (some o) place (deadline - now)) r
      | none =>
        if wait = 0 then .keep (.held (some o)) r
        else
          .keep (.waiting (some o) (r.waiting.length + 1) (wait * 100))
            { r with waiting := r.waiting ++ [{ waiter := m, deadline := now + wait * 100 }] }

/-- The hand-over to the head of the waiting list (R19, R20). -/
def passVerdict (head : WaitEntry) (taken : Bool) (r : Authority) : Verdict :=
  { outcome := .passed (some head.waiter), record := r.giveTo head.waiter, changed := true,
    granted := true, taken := taken }

/-- RELEASE on one axis (R19). -/
def releaseVerdict (m : Master) (r : Authority) : Verdict :=
  if r.owner = some m then
    match r.waiting with
    | [] =>
      { outcome := .released, record := { owner := none, yielding := false, waiting := [] },
        changed := true, granted := false, taken := false }
    | head :: _ => passVerdict head false r
  else .keep .notOwner r

/-- YIELD on one axis (R20). -/
def yieldVerdict (m : Master) (on : Bool) (r : Authority) : Verdict :=
  if r.owner = some m then
    if on then
      match r.waiting with
      | [] => .keep .yieldOn { r with yielding := true }
      | head :: _ => passVerdict head true r
    else .keep .yieldOff { r with yielding := false }
  else .keep .notOwner r

/-- SEIZE on one axis (R21), given which masters are stale. HELD carries the owner as it does under CLAIM: R21
gives it no data (log entry 25). -/
def seizeVerdict (m : Master) (stale : Master → Bool) (r : Authority) : Verdict :=
  match r.owner with
  | none =>
    { outcome := .seized, record := r.giveTo m, changed := true, granted := false, taken := false }
  | some o =>
    if o = m then .keep .owned r
    else if stale o then
      { outcome := .seized, record := r.giveTo m, changed := true, granted := false, taken := true }
    else .keep (.held (some o)) r

/-- WITHDRAW WAIT on one axis (R22). -/
def withdrawWaitVerdict (m : Master) (r : Authority) : Verdict :=
  if r.waiting.any fun e => e.waiter == m then
    .keep .waitWithdrawn { r with waiting := r.waiting.filter fun e => e.waiter != m }
  else .keep .notWaiting r

/-! ## The event (R16, R24, R27, R29) -/

/-- The notices of one kind to one recipient: one for each new owner, with every axis that falls under it,
in the channel order of the first axis each carries (R27, R29). -/
def groupedPosts (dest : Master) (newOwner : Axis → Option Master) (mk : AxisSet → Master → Notice) :
    List Post :=
  Axis.all.filterMap fun a =>
    match newOwner a with
    | none => none
    | some n =>
      if (Axis.all.takeWhile fun b => b != a).any fun b => newOwner b == some n then none
      else some ⟨dest, mk (AxisSet.ofTest fun b => newOwner b == some n) n⟩

/-- The GRANTED notices of an event, then its TAKEN notices, to each link in use (R27; their order on one
link is log entry 6). The supervisor has its copy of a change that its own request made as well (log entry 32). -/
def ownershipPosts (s : State) (x : AxisSet) (v : Axis → Verdict) : List Post :=
  (linksInUse s).flatMap fun dest =>
    groupedPosts dest (fun a =>
      if AxisSet.has x a && (v a).granted && (dest == .supervisor || (v a).record.owner == some dest)
      then (v a).record.owner else none) .granted ++
    groupedPosts dest (fun a =>
      if AxisSet.has x a && (v a).taken && (dest == .supervisor || ownerOf s a == some dest)
      then (v a).record.owner else none) .taken

/-- The axes of a request whose owner changes. -/
def changedSet (x : AxisSet) (v : Axis → Verdict) : AxisSet :=
  AxisSet.ofTest fun a => AxisSet.has x a && (v a).changed

/-- The records after a request. -/
def recordVerdicts (x : AxisSet) (v : Axis → Verdict) (s : State) : State :=
  { s with authority := PerAxis.ofFn fun a =>
      if AxisSet.has x a then (v a).record else s.authority.get a }

/-- A request of the authority table taken whole (R16): each axis judged on the record as the request found
it, then record, withdrawal, HOLD and notices in the order of R24. -/
def authorityEvent (x : AxisSet) (v : Axis → Verdict) (s : State) : Response :=
  let e := withdraw (changedSet x v) (recordVerdicts x v s)
  { state := holdAxes (changedSet x v) e.state
    reply := { refusal := none, omitted := 0,
               data := .outcomes ((AxisSet.members x).map fun a => (v a).outcome) }
    posts := ownershipPosts s x v ++ e.posts }

/-- An authority request behind its request-level checks (R16). -/
def authorityRequest (x : AxisSet) (argumentOk : Bool) (v : State → Axis → Verdict) (s : State) :
    Response :=
  match axisSetCheck s x with
  | some c => refuse s c
  | none => if argumentOk then authorityEvent x (v s) s else refuse s .badArgument

/-- CLAIM (R17). -/
def claim (m : Master) (x : AxisSet) (wait : Nat) : State → Response :=
  authorityRequest x (decide (wait ≤ 255)) fun s a =>
    claimVerdict s.timebase.ms m wait (s.authority.get a)

/-- RELEASE (R19). -/
def release (m : Master) (x : AxisSet) : State → Response :=
  authorityRequest x true fun s a => releaseVerdict m (s.authority.get a)

/-- YIELD (R20). -/
def yieldAxes (m : Master) (x : AxisSet) (on : Nat) : State → Response :=
  authorityRequest x (flagOf on).isSome fun s a =>
    yieldVerdict m ((flagOf on).getD false) (s.authority.get a)

/-- SEIZE (R21). -/
def seize (m : Master) (x : AxisSet) : State → Response :=
  authorityRequest x true fun s a =>
    seizeVerdict m (fun o => (s.joysticks.get o).stale == .stale) (s.authority.get a)

/-- WITHDRAW WAIT (R22). -/
def withdrawWait (m : Master) (x : AxisSet) : State → Response :=
  authorityRequest x true fun s a => withdrawWaitVerdict m (s.authority.get a)

/-- What QUERY AUTHORITY returns of one axis (R30). -/
def authorityReport (s : State) (a : Axis) : AuthorityReport :=
  { owner := ownerOf s a
    yielding := (s.authority.get a).yielding
    waiting := (s.authority.get a).waiting.map fun e => (e.waiter, leftUntil s e.deadline) }

/-- QUERY AUTHORITY (R30). -/
def queryAuthority (x : AxisSet) (s : State) : Response :=
  match axisSetCheck s x with
  | some c => refuse s c
  | none => accept s (.authority ((AxisSet.members x).map (authorityReport s)))

/-! ## Wait expiry (R23, R28) -/

/-- The deadlines of a master's entries that the timebase has reached. -/
def dueDeadlines (s : State) (m : Master) : List Nat :=
  Axis.all.flatMap fun a =>
    ((s.authority.get a).waiting.filter fun e => e.waiter == m && reached s e.deadline).map
      WaitEntry.deadline

/-- Whether an entry is a master's with a deadline. -/
def WaitEntry.isFor (m : Master) (d : Nat) (e : WaitEntry) : Bool := e.waiter == m && e.deadline == d

/-- The entries of a master with one deadline leave every list together, and it is told the axes and their
owners (R23, R28). -/
def expireAt (m : Master) (d : Nat) (s : State) : Emit :=
  { state := { s with authority := PerAxis.ofFn fun a =>
      { s.authority.get a with
        waiting := (s.authority.get a).waiting.filter fun e => !(WaitEntry.isFor m d e) } }
    posts := [⟨m, .waitExpired
      ((Axis.all.filter fun a => (s.authority.get a).waiting.any (WaitEntry.isFor m d)).map fun a =>
        (a, ownerOf s a))⟩] }

/-- WAIT_EXPIRY of a master's entries: those with the earliest deadline reached (R23). -/
def waitExpiry (m : Master) (s : State) : Emit :=
  match (dueDeadlines s m).min? with
  | none => quiet s
  | some d => expireAt m d s

/-! ## The commands -/

/-- CLAIM. -/
def execClaim (h : Header) (x : AxisSet) (wait : Nat) (s : State) : Host.Outcome State Fault Refusal :=
  request h (.claim h.unstamped x wait) (claim h.link x wait) s

/-- RELEASE. -/
def execRelease (h : Header) (x : AxisSet) (s : State) : Host.Outcome State Fault Refusal :=
  request h (.release h.unstamped x) (release h.link x) s

/-- YIELD. -/
def execYield (h : Header) (x : AxisSet) (on : Nat) (s : State) : Host.Outcome State Fault Refusal :=
  request h (.yield h.unstamped x on) (yieldAxes h.link x on) s

/-- SEIZE. -/
def execSeize (h : Header) (x : AxisSet) (s : State) : Host.Outcome State Fault Refusal :=
  request h (.seize h.unstamped x) (seize h.link x) s

/-- WITHDRAW_WAIT. -/
def execWithdrawWait (h : Header) (x : AxisSet) (s : State) : Host.Outcome State Fault Refusal :=
  request h (.withdrawWait h.unstamped x) (withdrawWait h.link x) s

/-- QUERY_AUTHORITY. -/
def execQueryAuthority (h : Header) (x : AxisSet) (s : State) : Host.Outcome State Fault Refusal :=
  request h (.queryAuthority h.unstamped x) (queryAuthority x) s

/-- WAIT_EXPIRY. -/
def execWaitExpiry (dt : Nat) (m : Master) (s : State) : Host.Outcome State Fault Refusal :=
  event dt (waitExpiry m) s

end Sys2Proof.Machine
end

