-- ==== Sys2Proof/Machine/Framing.lean ====
section
/-! DEFINITION. Frames of the master links (R157) and their layouts (11.7): escapes, the check, the payloads of
kinds 1 to 59, the code numbers, and the octets of the frames sent. -/

namespace Sys2Proof.Machine

/-! ## Escapes and check (R157) -/

/-- One octet as it is sent: 165 and 166 behind the escape octet 166, raised by 16. -/
def escapeOctet (o : Octet) : List Octet := if o = 165#8 ∨ o = 166#8 then [166#8, o + 16#8] else [o]

/-- The octets of a frame as they are sent between two flags. -/
def escape (l : List Octet) : List Octet := l.flatMap escapeOctet

/-- The octets of a frame with their escapes removed; absent where an escape octet is followed by anything
but 181 or 182, the closing flag included (R158). -/
def unescape : List Octet → Option (List Octet)
  | [] => some []
  | o :: rest =>
    if o = 166#8 then
      match rest with
      | [] => none
      | e :: rest => if e = 181#8 ∨ e = 182#8 then (unescape rest).map ((e - 16#8) :: ·) else none
    else if o = 165#8 then none
    else (unescape rest).map (o :: ·)

/-- One bit of the CRC-16 of polynomial x¹⁶ + x¹² + x⁵ + 1. -/
def crcBit (c : BitVec 16) : BitVec 16 := if c.msb then (c <<< 1) ^^^ 0x1021#16 else c <<< 1

/-- One octet of the check, its bits most significant first. -/
def crcOctet (c : BitVec 16) (o : Octet) : BitVec 16 :=
  crcBit (crcBit (crcBit (crcBit (crcBit (crcBit (crcBit (crcBit (c ^^^ (o.zeroExtend 16 <<< 8)))))))))

/-- The check of some octets, from a starting value of 65,535. -/
def crc (l : List Octet) : BitVec 16 := l.foldl crcOctet 0xFFFF#16

/-- The check's two octets, high octet first. -/
def checkOctets (l : List Octet) : List Octet := [(crc l).extractLsb' 8 8, (crc l).extractLsb' 0 8]

/-- A frame once its escapes are removed and its check taken off. -/
structure RawFrame where
  kind : Octet
  tag : Octet
  payload : List Octet
  deriving DecidableEq, Repr

/-- The octets a frame's check is formed over: kind, tag and payload. -/
def frameBody (f : RawFrame) : List Octet := f.kind :: f.tag :: f.payload

/-- A frame as the line carries it between two flags. -/
def sealFrame (f : RawFrame) : List Octet := escape (frameBody f ++ checkOctets (frameBody f))

/-- A frame read from its octets with the escapes removed: 4 to 124 of them, the check matching (R158). -/
def readFrame (l : List Octet) : Option RawFrame :=
  if numberWithin 4 124 l.length && l.drop (l.length - 2) == checkOctets (l.take (l.length - 2)) then
    match l.take (l.length - 2) with
    | kind :: tag :: payload => some { kind := kind, tag := tag, payload := payload }
    | _ => none
  else none

/-- A frame read from the octets between two flags. -/
def openFrame (l : List Octet) : Option RawFrame := (unescape l).bind readFrame

/-! ## Fields of a payload (11.7.2) -/

/-- A number of two octets, high octet first. -/
def two (a b : Nat) : Nat := 256 * a + b

/-- A number of four octets. -/
def four (a b c d : Nat) : Nat := 65536 * two a b + two c d

/-- A signed value of two octets. -/
def signedTwo (a b : Nat) : Int := (BitVec.ofNat 16 (two a b)).toInt

/-- A position of three octets. -/
def signedThree (a b c : Nat) : Int := (BitVec.ofNat 24 (256 * two a b + c)).toInt

/-- An axis set. -/
def axes (o : Nat) : AxisSet := BitVec.ofNat 8 o

/-- A timecode field: the tens digit in the high four bits, the ones digit in the low four. -/
def bcdField (o : Nat) : Bcd := { tens := o / 16, ones := o % 16 }

/-- A timecode of four octets. -/
def timecodeField (h m s f : Nat) : Timecode :=
  { hh := bcdField h, mm := bcdField m, ss := bcdField s, ff := bcdField f }

/-- Whole positions, three octets each. -/
def positionsIn : List Nat → List Int
  | a :: b :: c :: rest => signedThree a b c :: positionsIn rest
  | _ => []

/-- Pairs of an axis and a position, four octets each. -/
def pairsIn : List Nat → List (Nat × Int)
  | x :: a :: b :: c :: rest => (x, signedThree a b c) :: pairsIn rest
  | _ => []

/-- Zone bounds, a minimum and a maximum to an axis. -/
def boundsIn : List Nat → List (Int × Int)
  | a :: b :: c :: d :: e :: f :: rest => (signedThree a b c, signedThree d e f) :: boundsIn rest
  | _ => []

/-- The keyframe argument of STORE PRESET in its octets, for n targets. Octets that are no whole keyframe
give an argument that R55 refuses. -/
def keyframeIn (n : Nat) (l : List Nat) : KeyframeArg :=
  match l.drop (3 * n) with
  | [d, d', p, g] =>
    { targets := positionsIn (l.take (3 * n)), duration := two d d', shape := p, gate := g }
  | _ => { targets := [], duration := 0, shape := 0, gate := 0 }

/-- Octets cut into keyframes of 3 · n + 4 octets, within a number of places. -/
def keyframesIn (n : Nat) : Nat → List Nat → List KeyframeArg
  | 0, _ => []
  | places + 1, l =>
    if l = [] then []
    else keyframeIn n (l.take (3 * n + 4)) :: keyframesIn n places (l.drop (3 * n + 4))

/-- The label field: its length octet and twelve characters, those past the length ignored. A length above
12 gives thirteen characters, which R55 refuses. -/
def labelIn (length : Nat) (chars : List Nat) : List Octet :=
  (if length ≤ 12 then chars.take length else chars ++ [0]).map (BitVec.ofNat 8)

/-- STORE PRESET: 17 octets and then keyframes. -/
def storeRequest (h : Header) (p : List Nat) : Option Instr :=
  match p with
  | bank :: pos :: x :: g :: n :: rest =>
    if rest.length < 12 then none
    else
      some (.storePreset h bank pos (axes x) g (labelIn n (rest.take 12))
        (keyframesIn (axisCount (axes x)) rest.length (rest.drop 12)))
  | _ => none

/-- The appended keyframe of APPEND KEYFRAME in its octets; absent where no such argument has the length. A
form or count octet that disagrees with the length gives an argument that R57 refuses. -/
def appendedIn (l : List Nat) : Option AppendArg :=
  match l with
  | [f, d, d', p, g] => some (if f = 1 then .capture (two d d') p g else .unreadable)
  | f :: n :: rest =>
    match rest.drop (rest.length - 4) with
    | [d, d', p, g] =>
      if rest.length % 4 ≠ 0 then none
      else if f = 0 ∧ rest.length = 4 * n + 4 then
        some (.explicit (pairsIn (rest.take (4 * n))) (two d d') p g)
      else some .unreadable
    | _ => none
  | _ => none

/-! ## Requests by kind (11.7.1, R161) -/

/-- Kinds 2 to 20. -/
def earlyRequest (h : Header) (kind : Nat) (p : List Nat) : Option Instr :=
  match kind, p with
  | 2, [x, w] => some (.claim h (axes x) w)
  | 3, [x] => some (.release h (axes x))
  | 4, [x, on] => some (.yield h (axes x) on)
  | 5, [x] => some (.seize h (axes x))
  | 6, [x] => some (.withdrawWait h (axes x))
  | 7, [x] => some (.queryAuthority h (axes x))
  | 8, [x, m] => some (.setMode h (axes x) m)
  | 9, [x, f, f'] => some (.takeLive h (axes x) (two f f'))
  | 10, [x] => some (.enable h (axes x))
  | 11, [x] => some (.disable h (axes x))
  | 12, p => storeRequest h p
  | 13, [b, q, x, d, d', sh] => some (.capture h b q (axes x) (two d d') sh)
  | 14, b :: q :: rest => (appendedIn rest).map (.appendKeyframe h b q)
  | 15, [b, q] => some (.erasePreset h b q)
  | 16, [b, q, f] => some (.queryPreset h b q f)
  | 17, [b, q, fk, fx, v, v', ck, hh, mm, ss, ff, pol] =>
    some (.recallCue h b q { kind := fk, axes := axes fx } (two v v')
      { kind := ck, timecode := timecodeField hh mm ss ff } pol)
  | 18, [id] => some (.go h id)
  | 19, [id] => some (.abort h id)
  | 20, [id, v, v'] => some (.speed h id (two v v'))
  | _, _ => none

/-- Kinds 21 to 40. -/
def middleRequest (h : Header) (kind : Nat) (p : List Nat) : Option Instr :=
  match kind, p with
  | 21, [] => some (.queryQueue h)
  | 22, [a] => some (.queryLimits h a)
  | 23, [] => some (.queryZones h)
  | 24, [m] => some (.queryJoystick h m)
  | 25, [d] => some (.queryDirectory h d)
  | 26, [l] => some (.queryCueList h l)
  | 27, [] => some (.queryViews h)
  | 28, [] => some (.queryCache h)
  | 29, [x] => some (.queryBlend h (axes x))
  | 30, [] => some (.queryCoupling h)
  | 31, [] => some (.queryTimecode h)
  | 32, [] => some (.queryBus h)
  | 33, [] => some (.queryFaults h)
  | 34, [] => some (.status h)
  | 35, [n] => some (.setReport h n)
  | 36, [] => some (.releaseClear h)
  | 37, [m, a, d, d', e, e', g, g', i] =>
    some (.setProfile h m a (two d d') (two e e') (two g g') i)
  | 38, [m, l] => some (.setStaleLimit h m l)
  | 39, [v, e, d, l, k] => some (.setView h v e d l k)
  | 40, [sc] => some (.purge h sc)
  | _, _ => none

/-- Kinds 41 to 59. -/
def lateRequest (h : Header) (kind : Nat) (p : List Nat) : Option Instr :=
  match kind, p with
  | 41, [x] => some (.setFitted h (axes x))
  | 42, [a, l, l', l'', u, u', u'', v, v', c, c', r1, r2, r3, r4, f1, f2, f3, f4, n] =>
    some (.setLimits h a (signedThree l l' l'') (signedThree u u' u'') (two v v') (two c c')
      (four r1 r2 r3 r4) (four f1 f2 f3 f4) n)
  | 43, z :: e :: x :: rest =>
    if rest.length % 6 = 0 ∧ rest.length ≤ 48 then some (.setZone h z e (axes x) (boundsIn rest))
    else none
  | 44, d :: b :: k :: l :: rest =>
    if rest.length ≤ 2 then some (.setBankEntry h d b k l rest) else none
  | 45, [l, q, v, k, r] => some (.setCueEntry h l q v k r)
  | 46, [n, e, a, b, g, g'] => some (.setCoupling h n e a b (signedTwo g g'))
  | 47, [] => some (.tcRun h)
  | 48, [] => some (.tcStop h)
  | 49, [hh, mm, ss, ff] => some (.setTimecode h (timecodeField hh mm ss ff))
  | 50, [sg, hh, mm, ss, ff] => some (.offsetTimecode h sg (timecodeField hh mm ss ff))
  | 51, [r] => some (.setRate h r)
  | 52, r :: t :: t' :: slots =>
    if slots.length = 16 then some (.setBusConfig h r (two t t') slots) else none
  | 53, [] => some (.busStart h)
  | 54, [] => some (.busStop h)
  | 55, [src, a] => some (.setFaultActions h src a)
  | 56, [e, e', t] => some (.setFaultTimers h (two e e') t)
  | 57, [a, b] => some (.faultClear h (BitVec.ofNat 16 (two a b)))
  | 58, [] => some (.saveStore h)
  | 59, [] => some (.restart h)
  | _, _ => none

/-- The request of a kind and a payload: absent where the kind is no request kind, or its arguments cannot
have the payload's length (R158). -/
def requestOf (h : Header) (kind : Nat) (p : List Nat) : Option Instr :=
  if kind ≤ 20 then earlyRequest h kind p
  else if kind ≤ 40 then middleRequest h kind p
  else lateRequest h kind p

/-- The eight deflections of a JOY payload (11.7.3). -/
def deflectionsIn (p : List Nat) : Option (PerAxis Int) :=
  match p with
  | [a, a', b, b', c, c', d, d', e, e', f, f', g, g', i, i'] =>
    some { track := signedTwo a a', swing := signedTwo b b', lift := signedTwo c c',
           tele := signedTwo d d', pan := signedTwo e e', tilt := signedTwo f f',
           roll := signedTwo g g', zoom := signedTwo i i' }
  | _ => none

/-- What a good frame from a master brings. -/
inductive LinkInput where
  | joy (deflections : PerAxis Int)
  | request (i : Instr)
  deriving DecidableEq, Repr

/-- What a frame brings by its kind and payload; absent for a bad frame (R158). -/
def inputOf (m : Master) (f : RawFrame) : Option LinkInput :=
  if f.kind = 1#8 then (deflectionsIn (f.payload.map BitVec.toNat)).map .joy
  else
    (requestOf { elapsed := 0, link := m, tag := f.tag } f.kind.toNat (f.payload.map BitVec.toNat)).map
      .request

/-- What the octets between two flags bring on a link. -/
def frameInput (m : Master) (l : List Octet) : Option LinkInput := (openFrame l).bind (inputOf m)

/-! ## Numbers of frames sent (11.7.1, 11.7.4 to 11.7.6) -/

/-- The number of a refusal code. -/
def refusalNumber : RefusalCode → Nat
  | .badArgument => 1 | .badAxis => 2 | .notPermitted => 3 | .busRunning => 4 | .busStopped => 5
  | .axisInUse => 6 | .outOfLimits => 7 | .notOwner => 8
  | .viewOff => 9 | .rangeBank => 10 | .bankEmpty => 11 | .entryEmpty => 12 | .rangeEntry => 13
  | .rangeRecord => 14
  | .locked => 15 | .keyMismatch => 16 | .inUse => 17 | .saving => 18 | .recordFree => 19 | .full => 20
  | .guarded => 21
  | .emptyAxes => 22 | .faultStop => 23 | .cuePassed => 24 | .queueFull => 25 | .badTimecode => 26
  | .unknownMove => 27
  | .tcRunning => 28 | .slotMap => 29 | .axesEnabled => 30 | .moveActive => 31
  | .estopActive => 32 | .stopInProgress => 33 | .faultsSet => 34

/-- The number of a per-axis outcome. -/
def outcomeNumber : AxisOutcome → Nat
  | .busStopped => 5 | .outOfLimits => 7 | .notOwner => 8
  | .granted => 64 | .owned => 65 | .transferred => 66 | .held _ => 67 | .waiting _ _ _ => 68
  | .alreadyWaiting _ _ _ => 69
  | .released => 70 | .passed _ => 71 | .yieldOn => 72 | .yieldOff => 73 | .seized => 74
  | .waitWithdrawn => 75 | .notWaiting => 76
  | .live => 77 | .hold => 78 | .trim => 79 | .handoff => 80 | .badMode => 81
  | .enabled => 82 | .disabled => 83 | .driveNotReady => 84 | .latched => 85

/-- The kind number of a notice. -/
def noticeNumber : Notice → Nat
  | .hello _ _ _ _ => 129 | .granted _ _ => 130 | .taken _ _ => 131 | .waitExpired _ => 132
  | .moveStarted _ _ _ _ _ _ => 133 | .moveDone _ _ _ => 134 | .fault _ _ _ => 135
  | .axisReport _ _ _ => 136 | .saveDone => 137 | .saveFailed _ _ => 138

/-- The kind octet of a frame sent. -/
def LinkFrame.kind : LinkFrame → Octet
  | .reply _ _ => 128#8
  | .notice n => BitVec.ofNat 8 (noticeNumber n)

/-- The tag octet of a frame sent: the request's in a reply, 0 in a notice (R157). -/
def LinkFrame.tag : LinkFrame → Octet
  | .reply t _ => t
  | .notice _ => 0#8

/-- The two octets that open a reply's payload (11.7.4). -/
def replyHeader (r : Reply) : List Octet :=
  [match r.refusal with
    | none => 0#8
    | some c => BitVec.ofNat 8 (refusalNumber c), BitVec.ofNat 8 r.omitted]

/-- A position in its three octets. -/
def positionOctets (v : Int) : List Octet :=
  [(BitVec.ofInt 24 v).extractLsb' 16 8, (BitVec.ofInt 24 v).extractLsb' 8 8,
   (BitVec.ofInt 24 v).extractLsb' 0 8]

/-- A timecode in its four octets. -/
def timecodeOctets (t : Timecode) : List Octet :=
  [t.hh, t.mm, t.ss, t.ff].map fun b => BitVec.ofNat 8 (16 * b.tens + b.ones)

/-- A master or owner octet. -/
def ownerOctet : Option Master → Octet
  | none => 0#8 | some .consoleA => 1#8 | some .consoleB => 2#8 | some .supervisor => 3#8

/-- A blend mode octet (11.7.5). -/
def modeOctet : Mode → Octet
  | .hold => 0#8 | .live => 1#8 | .preset => 2#8 | .trim => 3#8 | .handoff => 4#8

/-- One axis of an AXIS_REPORT: eight octets (11.7.5). -/
def axisReportOctets (r : AxisReport) : List Octet :=
  positionOctets r.d1 ++ positionOctets r.feedback ++ [modeOctet r.mode, ownerOctet r.owner]

/-- The 72 octets of an AXIS_REPORT payload (11.7.5). -/
def axisReportPayload (frameNumber : BitVec 32) (t : Timecode) (r : PerAxis AxisReport) : List Octet :=
  [frameNumber.extractLsb' 24 8, frameNumber.extractLsb' 16 8, frameNumber.extractLsb' 8 8,
   frameNumber.extractLsb' 0 8] ++ timecodeOctets t ++ Axis.all.flatMap fun a => axisReportOctets (r.get a)

/-! ## Frames sent (R157, R163) -/

/-- Whether an outcome is its code alone: the rules give the others data, whose layout the spec does not give. -/
def AxisOutcome.bare : AxisOutcome → Bool
  | .held _ | .waiting _ _ _ | .alreadyWaiting _ _ _ | .passed _ => false
  | _ => true

/-- The octets of one outcome of a reply: its code number, and behind it the data its rule gives. How the data are
laid out the spec does not say: some octets, of which eight outcomes fit a payload (log entry 31). -/
def outcomeOctets (free : List Octet) (o : AxisOutcome) : List Octet :=
  BitVec.ofNat 8 (outcomeNumber o) :: if o.bare then [] else free.take 13

/-- The octets of a reply's data (11.7.4): none, the outcomes of the named axes in channel order, or data whose
layout the spec does not give. -/
def dataOctets (free : Nat → List Octet) : ReplyData → List Octet
  | .none => []
  | .outcomes l => (l.mapIdx fun i o => outcomeOctets (free i) o).flatten
  | _ => (free 0).take 118

/-- The octets of a notice: those of AXIS_REPORT, none for SAVE_DONE, which carries nothing (R173), and contents
whose layout the spec does not give. -/
def noticeOctets (free : Nat → List Octet) : Notice → List Octet
  | .axisReport n t r => axisReportPayload n t r
  | .saveDone => []
  | _ => (free 0).take 120

/-- The payload of a frame sent. Octets whose layout the spec does not give are a free value, one list for each
place in the frame, within the 120 octets of a payload (log entry 31). -/
def LinkFrame.payload (free : Nat → List Octet) : LinkFrame → List Octet
  | .reply _ r => replyHeader r ++ dataOctets free r.data
  | .notice n => noticeOctets free n

/-- A frame sent, before its check and its escapes. -/
def LinkFrame.raw (free : Nat → List Octet) (f : LinkFrame) : RawFrame :=
  { kind := f.kind, tag := f.tag, payload := f.payload free }

/-- What the line carries for a frame: a flag, the frame with its check formed and its octets escaped, a flag. -/
def onLine (f : RawFrame) : List Octet := 165#8 :: sealFrame f ++ [165#8]

end Sys2Proof.Machine
end

