-- ==== Sys2Proof/Machine/Shaper.lean ====
section
/-! DEFINITION. The joystick shaper (chapter 3): samples, profiles, the shaped velocity, the stale limit and
stale entry. -/

namespace Sys2Proof.Machine

/-- The state with one joystick record replaced. -/
def State.setJoystick (s : State) (m : Master) (j : Joystick) : State :=
  { s with joysticks := s.joysticks.set m j }

/-! ## Samples (R34, R41) -/

/-- A good JOY of an OPEN port handed to the shaper: every deflection taken, outside the range as the nearer
end of it; the arrival time is now; a STALE master becomes FRESH. -/
def takeSample (m : Master) (deflections : PerAxis Int) (s : State) : State :=
  s.setJoystick m
    { sample := PerAxis.ofFn fun a => clampTo (-2047) 2047 (deflections.get a)
      arrival := some s.timebase.ms
      stale := .fresh }

/-- A good JOY frame at its port (R158, R159): the bad-frame run is over; a CLOSED port discards it. -/
def receiveJoy (m : Master) (deflections : PerAxis Int) (s : State) : State :=
  match (s.ports.get m).link with
  | .closed => s
  | .opened => takeSample m deflections (s.setPort m { s.ports.get m with badRun := 0 })

/-! ## Shaped velocity (R37, R38) -/

/-- Steps 1 and 2 of R37: the travel outside the deadband rescaled to the full range. -/
def rescale (p : Profile) (x : Int) : Int :=
  if x.natAbs ≤ p.deadband then 0
  else x.sign * (((x.natAbs : Int) - p.deadband) * 2047).tdiv (2047 - p.deadband)

/-- Step 3 of R37: a straight line blended with a cube. -/
def applyExpo (p : Profile) (u : Int) : Int :=
  ((256 - (p.expo : Int)) * u + ((p.expo : Int) * u ^ 3).tdiv 4190209).tdiv 256

/-- The velocity of a deflection through a profile (R37). -/
def shape (p : Profile) (x : Int) : Int :=
  let v := (applyExpo p (rescale p x) * p.gain).tdiv 2047
  if p.invert then -v else v

/-- The shaped velocity of an axis (R38): 0 without an owner or under a STALE owner. -/
def shapedVelocity (s : State) (a : Axis) : Int :=
  match ownerOf s a with
  | none => 0
  | some m =>
    match (s.joysticks.get m).stale with
    | .stale => 0
    | .fresh => shape ((s.settings.profiles.get m).get a) ((s.joysticks.get m).sample.get a)

/-! ## Stale entry (R39, R40) -/

/-- The fault source of a stale master (R40). -/
def staleSource : Master → FaultSource
  | .consoleA => .staleA | .consoleB => .staleB | .supervisor => .staleS

/-- The elapsed time of a master, absent until its first JOY (R33). -/
def joystickElapsed (s : State) (m : Master) : Option Nat :=
  (s.joysticks.get m).arrival.map fun t => s.timebase.ms - t

/-- Whether the elapsed time exceeds a limit; an absent arrival time exceeds every limit (R39). -/
def exceeds (s : State) (m : Master) (limit : Nat) : Bool :=
  match joystickElapsed s m with
  | none => true
  | some t => decide (limit < t)

/-- The state with the stale state of a master written. -/
def setStale (m : Master) (v : StaleState) (s : State) : State :=
  s.setJoystick m { s.joysticks.get m with stale := v }

/-- Stale entry (R40): STALE, and the master's source raised. -/
def enterStale (m : Master) (s : State) : Emit :=
  raise (staleSource m) (RaiseInfo.ofMaster m) (setStale m .stale s)

/-- STALE_ENTRY: a FRESH master whose elapsed time exceeds a limit other than OFF (R40). -/
def staleEntry (m : Master) (s : State) : Emit :=
  match (s.joysticks.get m).stale, s.settings.staleLimits.get m with
  | .fresh, some limit => if exceeds s m limit then enterStale m s else quiet s
  | _, _ => quiet s

/-- The stale state judged again under a limit just written (R39). -/
def rejudgeStale (m : Master) (limit : Option Nat) (s : State) : Emit :=
  match (s.joysticks.get m).stale, limit with
  | .fresh, some l => if exceeds s m l then enterStale m s else quiet s
  | .fresh, none => quiet s
  | .stale, some _ => quiet s
  | .stale, none => quiet (setStale m .fresh s)

/-! ## Requests (R36, R39, R43) -/

/-- Whether a console names a master other than itself without the supervisor's privileges (R36, R39). -/
def namesAnother (s : State) (requester : Master) (named : Nat) : Bool :=
  !(actsAsSupervisor s requester) &&
    match masterOf named with
    | some m => m != requester
    | none => false

/-- The profile four fields give, where each lies within its range (R35). -/
def profileOf (deadband expo gain invert : Nat) : Option Profile :=
  match flagOf invert with
  | some inv =>
    if deadband ≤ 511 ∧ expo ≤ 256 ∧ gain ≤ 65535 then
      some { deadband := deadband, expo := expo, gain := gain, invert := inv }
    else none
  | none => none

/-- The state with one profile replaced. -/
def setProfileOf (m : Master) (a : Axis) (p : Profile) (s : State) : State :=
  { s with settings := { s.settings with
      profiles := s.settings.profiles.set m ((s.settings.profiles.get m).set a p) } }

/-- SET PROFILE (R36). -/
def setProfile (requester : Master) (master axis deadband expo gain invert : Nat) (s : State) :
    Response :=
  if namesAnother s requester master then refuse s .notPermitted
  else if namesUnfitted s axis then refuse s .badAxis
  else
    match masterOf master, Axis.ofNumber? axis, profileOf deadband expo gain invert with
    | some m, some a, some p => accept (setProfileOf m a p s) .none
    | _, _, _ => refuse s .badArgument

/-- The state with one stale limit replaced. -/
def setLimitOf (m : Master) (limit : Option Nat) (s : State) : State :=
  { s with settings := { s.settings with staleLimits := s.settings.staleLimits.set m limit } }

/-- SET STALE LIMIT (R39): OFF is accepted for SUPERVISOR alone. -/
def setStaleLimit (requester : Master) (master limit : Nat) (s : State) : Response :=
  if namesAnother s requester master then refuse s .notPermitted
  else
    match masterOf master, limitOf limit with
    | some m, some l =>
      if l = none ∧ m ≠ .supervisor then refuse s .badArgument
      else acceptWith (rejudgeStale m l (setLimitOf m l s)) .none
    | _, _ => refuse s .badArgument

/-- What QUERY JOYSTICK returns (R43). -/
def joystickReport (s : State) (m : Master) : JoystickReport :=
  { sample := (s.joysticks.get m).sample
    elapsed := joystickElapsed s m
    stale := (s.joysticks.get m).stale
    limit := s.settings.staleLimits.get m
    profiles := s.settings.profiles.get m }

/-- QUERY JOYSTICK (R43). -/
def queryJoystick (master : Nat) (s : State) : Response :=
  match masterOf master with
  | some m => accept s (.joystick (joystickReport s m))
  | none => refuse s .badArgument

/-! ## The commands -/

/-- JOY. -/
def execJoy (dt : Nat) (m : Master) (deflections : PerAxis Int) (s : State) :
    Host.Outcome State Fault Refusal :=
  event dt (fun s => quiet (receiveJoy m deflections s)) s

/-- STALE_ENTRY. -/
def execStaleEntry (dt : Nat) (m : Master) (s : State) : Host.Outcome State Fault Refusal :=
  event dt (staleEntry m) s

/-- SET_PROFILE. -/
def execSetProfile (h : Header) (master axis deadband expo gain invert : Nat) (s : State) :
    Host.Outcome State Fault Refusal :=
  request h (.setProfile h.unstamped master axis deadband expo gain invert)
    (setProfile h.link master axis deadband expo gain invert) s

/-- SET_STALE_LIMIT. -/
def execSetStaleLimit (h : Header) (master limit : Nat) (s : State) :
    Host.Outcome State Fault Refusal :=
  request h (.setStaleLimit h.unstamped master limit) (setStaleLimit h.link master limit) s

/-- QUERY_JOYSTICK. -/
def execQueryJoystick (h : Header) (master : Nat) (s : State) : Host.Outcome State Fault Refusal :=
  request h (.queryJoystick h.unstamped master) (queryJoystick master) s

end Sys2Proof.Machine
end

