-- ==== Sys2Proof/Machine/Links.lean ====
section
/-! DEFINITION. The link ports (chapter 11): what a frame's closing flag does, what a frame sent leaves, STATUS
and SET REPORT. -/

namespace Sys2Proof.Machine

/-! ## Receiving (R158, R159) -/

/-- The error source of a link (R158). -/
def linkSource : Master → FaultSource
  | .consoleA => .linkAError | .consoleB => .linkBError | .supervisor => .linkSError

/-- The state with the bad-frame run of a port written. -/
def setBadRun (m : Master) (n : Nat) (s : State) : State :=
  s.setPort m { s.ports.get m with badRun := n }

/-- A bad frame (R158): the run rises, held at 8, and reaching 8 from 7 raises the link's source. -/
def badFrame (m : Master) (s : State) : Emit :=
  whenever ((s.ports.get m).badRun == 7) (raise (linkSource m) (RaiseInfo.ofMaster m))
    (setBadRun m (min 8 ((s.ports.get m).badRun + 1)) s)

/-- A frame at its closing flag on an OPEN port (R158, R159). -/
def judgeFrame (m : Master) (octets : List Octet) (s : State) : Emit :=
  match frameInput m octets with
  | none => badFrame m s
  | some (.joy d) => quiet (takeSample m d (setBadRun m 0 s))
  | some (.request i) => quiet (receiveRequest m i s)

/-- FRAME_RECEIVED: two flags with nothing between them form no frame, and a CLOSED port discards what
arrives (R156, R157). -/
def frameReceived (m : Master) (octets : List Octet) (s : State) : Emit :=
  match (s.ports.get m).link, octets with
  | .closed, _ | .opened, [] => quiet s
  | .opened, o :: rest => judgeFrame m (o :: rest) s

/-! ## Sending (R163) -/

/-- A port whose line has carried the frame at the head of its transmit queue. A CLOSED port sends nothing (R156). -/
def Port.send (free : Nat → List Octet) (p : Port) : Port :=
  match p.link, p.tx with
  | .opened, f :: rest => { p with tx := rest, line := onLine (f.raw free) }
  | _, _ => p

/-- FRAME_LEAVES_QUEUE: the frame at the head of the transmit queue has been sent, each of its octets formed by
R157. -/
def frameLeaves (m : Master) (s : State) : State :=
  drawn (s.setPort m ((s.ports.get m).send (Config.openOctets s.freeDraws)))

/-! ## Requests of the port (R165, R166) -/

/-- What STATUS returns (R165), with D1 beside what R165 lists of an axis (R6; log entry 30). -/
def statusReport (s : State) (m : Master) : StatusReport :=
  { links := PerMaster.ofFn fun l =>
      { badRun := (s.ports.get l).badRun, overrun := (s.ports.get l).overrun }
    noticesLost := (s.ports.get m).noticesLost
    bus := s.bus.state
    safeStop := s.faults.safeStop
    counter := s.timecode.counter
    lock := s.timecode.lock
    axes := PerAxis.ofFn fun a =>
      { owner := ownerOf s a, mode := (s.blend.get a).mode, enable := (s.bus.drives.get a).enable,
        d1 := d1Of s a } }

/-- STATUS (R165): the requester's notices-lost flag is cleared once it stands in the reply. -/
def status (m : Master) (s : State) : Response :=
  accept (s.setPort m { s.ports.get m with noticesLost := false }) (.status (statusReport s m))

/-- SET REPORT (R166): the countdown restarts at the interval. -/
def setReport (m : Master) (interval : Nat) (s : State) : Response :=
  match intervalOf interval with
  | none => refuse s .badArgument
  | some i =>
    accept (s.setPort m { s.ports.get m with interval := i, countdown := i.getD 0 }) .none

/-! ## The commands -/

/-- FRAME_RECEIVED. -/
def execFrameReceived (dt : Nat) (m : Master) (octets : List Octet) (s : State) :
    Host.Outcome State Fault Refusal :=
  event dt (frameReceived m octets) s

/-- FRAME_LEAVES_QUEUE. -/
def execFrameLeavesQueue (dt : Nat) (m : Master) (s : State) : Host.Outcome State Fault Refusal :=
  event dt (fun s => quiet (frameLeaves m s)) s

/-- STATUS. -/
def execStatus (h : Header) (s : State) : Host.Outcome State Fault Refusal :=
  request h (.status h.unstamped) (status h.link) s

/-- SET_REPORT. -/
def execSetReport (h : Header) (interval : Nat) (s : State) : Host.Outcome State Fault Refusal :=
  request h (.setReport h.unstamped interval) (setReport h.link interval) s

end Sys2Proof.Machine
end

