-- ==== Sys2Proof/Machine/Resolver.lean ====
section
/-! DEFINITION. The cue resolver and the resolution cache (chapter 5), with the reading of the store's
structure it walks (R46, R47, R49). -/

namespace Sys2Proof.Machine

/-! ## Reading the store -/

/-- A preset record by number (R44). -/
def recordAt (s : State) (n : Nat) : PresetRecord := readAt PresetRecord.cleared n s.store.records

/-- A cue entry by list and position (R46). -/
def cueAt (s : State) (list pos : Nat) : CueEntry := readAt CueEntry.cleared (list * 16 + pos) s.store.cues

/-- A bank entry by directory and bank (R47). -/
def bankAt (s : State) (directory bank : Nat) : BankEntry :=
  readAt BankEntry.cleared (directory * 16 + bank) s.store.banks

/-! ## Resolution (R63 to R69) -/

/-- What a resolution hands: a record number and the effective lock (R49). -/
structure Resolved where
  record : Nat
  locked : Bool
  deriving DecidableEq, Repr

/-- The outcome of a resolution: a fault, or its results. -/
inductive Resolution where
  | fault (c : RefusalCode)
  | found (r : Resolved)
  deriving DecidableEq, Repr

/-- The walk through the store (R64). -/
def walk (s : State) (v : View) (bank pos : Nat) : Resolution :=
  if v.length ≤ bank then .fault .rangeBank
  else
    match (bankAt s v.directory bank).target with
    | .empty => .fault .bankEmpty
    | .list n =>
      if (cueAt s n pos).valid then
        .found { record := (cueAt s n pos).record
                 locked := (bankAt s v.directory bank).locked || (cueAt s n pos).locked }
      else .fault .entryEmpty
    | .run base count =>
      if count ≤ pos then .fault .rangeEntry
      else if 255 < base + pos then .fault .rangeRecord
      else .found { record := base + pos, locked := (bankAt s v.directory bank).locked }

/-- Whether a cache entry has a key (R67). -/
def CacheEntry.isFor (directory bank pos : Nat) (e : CacheEntry) : Bool :=
  e.directory == directory && e.bank == bank && e.pos == pos

/-- A hit makes its entry most recent (R69). -/
def promote (e : CacheEntry) (c : List CacheEntry) : List CacheEntry := e :: c.erase e

/-- A successful walk's entry becomes most recent; of 8 entries the least recent is removed first (R68). -/
def insertEntry (e : CacheEntry) (c : List CacheEntry) : List CacheEntry := e :: c.take 7

/-- The state with the cache replaced. -/
def State.setCache (s : State) (c : List CacheEntry) : State := { s with cache := c }

/-- Resolution of a cue address through a master's view (R63): the state with its effect on the cache, and
its outcome. -/
def resolve (m : Master) (bank pos : Nat) (s : State) : State × Resolution :=
  let v := viewOf s m
  if v.enabled then
    match s.cache.find? (CacheEntry.isFor v.directory bank pos) with
    | some e => (s.setCache (promote e s.cache), .found { record := e.record, locked := e.locked })
    | none =>
      match walk s v bank pos with
      | .fault c => (s, .fault c)
      | .found r =>
        (s.setCache (insertEntry
          { directory := v.directory, bank := bank, pos := pos, record := r.record, locked := r.locked }
          s.cache), .found r)
  else (s, .fault .viewOff)

/-- Whether two keys differ where neither is 0: the key and guard tests of R54 and R66. -/
def keysDiffer (viewKey recordKey : Nat) : Bool :=
  viewKey != 0 && recordKey != 0 && viewKey != recordKey

/-- Whether a bank and a position lie within 0 to 15 (R62). -/
def addressOk (bank pos : Nat) : Bool := decide (bank < 16) && decide (pos < 16)

/-! ## Requests (R72, R73) -/

/-- A purge scope (11.7.2): 255 for ALL, otherwise a directory number. -/
inductive PurgeScope where
  | all
  | directory (d : Nat)
  deriving DecidableEq, Repr

/-- The scope an octet names. -/
def scopeOf (o : Nat) : Option PurgeScope :=
  if o = 255 then some .all else if o < 4 then some (.directory o) else none

/-- Whether a scope covers an entry. -/
def PurgeScope.covers : PurgeScope → CacheEntry → Bool
  | .all, _ => true
  | .directory d, e => e.directory == d

/-- PURGE (R72): a console without the supervisor's privileges may purge its own view's directory alone. -/
def purge (m : Master) (scope : Nat) (s : State) : Response :=
  if !(actsAsSupervisor s m) && scope != (viewOf s m).directory then refuse s .notPermitted
  else
    match scopeOf scope with
    | none => refuse s .badArgument
    | some sc =>
      accept (s.setCache (s.cache.filter fun e => !(sc.covers e)))
        (.purged (s.cache.filter sc.covers).length)

/-- PURGE. -/
def execPurge (h : Header) (scope : Nat) (s : State) : Host.Outcome State Fault Refusal :=
  request h (.purge h.unstamped scope) (purge h.link scope) s

/-- QUERY_CACHE (R73): the entries in recency order. -/
def execQueryCache (h : Header) (s : State) : Host.Outcome State Fault Refusal :=
  request h (.queryCache h.unstamped) (fun s => accept s (.cache s.cache)) s

end Sys2Proof.Machine
end

