-- ==== Sys2Proof/Machine/Store.lean ====
section
/-! DEFINITION. The preset store (chapter 4): structure requests, edit requests and the reading of the
store. -/

namespace Sys2Proof.Machine

/-! ## Writing the store -/

/-- The state with one preset record written. -/
def State.setRecord (s : State) (n : Nat) (r : PresetRecord) : State :=
  { s with store := { s.store with records := writeAt PresetRecord.cleared n r s.store.records } }

/-- The state with one cue entry written. -/
def State.setCue (s : State) (list pos : Nat) (e : CueEntry) : State :=
  { s with store := { s.store with cues := writeAt CueEntry.cleared (list * 16 + pos) e s.store.cues } }

/-- The state with one bank entry written. -/
def State.setBank (s : State) (directory bank : Nat) (e : BankEntry) : State :=
  { s with store := { s.store with
      banks := writeAt BankEntry.cleared (directory * 16 + bank) e s.store.banks } }

/-- The state with one view written. -/
def State.setView (s : State) (m : Master) (v : View) : State :=
  { s with settings := { s.settings with views := s.settings.views.set m v } }

/-- A check that a SAVE STORE is not in flight, taken last (R51, R52, R53). -/
def unlessSaving (s : State) (r : Response) : Response := if s.save.isSome then refuse s .saving else r

/-! ## Structure requests (R51, R52, R53) -/

/-- SET BANK ENTRY (R51). -/
def setBankEntry (directory bank kind locked : Nat) (fields : List Nat) (s : State) : Response :=
  if directory < 4 ∧ bank < 16 then
    match bankTargetOf kind fields, flagOf locked with
    | some t, some l =>
      unlessSaving s (accept (s.setBank directory bank { locked := l, target := t }) .none)
    | _, _ => refuse s .badArgument
  else refuse s .badArgument

/-- SET CUE ENTRY (R52). -/
def setCueEntry (list pos valid locked record : Nat) (s : State) : Response :=
  if list < 32 ∧ pos < 16 ∧ record < 256 then
    match flagOf valid, flagOf locked with
    | some v, some l =>
      unlessSaving s (accept (s.setCue list pos { valid := v, locked := l, record := record }) .none)
    | _, _ => refuse s .badArgument
  else refuse s .badArgument

/-- The privilege of SET VIEW (R53): a console may change its own view's directory and length. -/
def viewPermitted (s : State) (m : Master) (view enabled key : Nat) : Bool :=
  actsAsSupervisor s m ||
    (viewNamed view == some m && flagOf enabled == some (viewOf s m).enabled && key == (viewOf s m).key)

/-- SET VIEW (R53). -/
def setView (m : Master) (view enabled directory length key : Nat) (s : State) : Response :=
  if viewPermitted s m view enabled key then
    match viewNamed view, flagOf enabled with
    | some v, some e =>
      if directory < 4 ∧ numberWithin 1 16 length ∧ key < 16 then
        unlessSaving s (accept
          (s.setView v { enabled := e, directory := directory, length := length, key := key }) .none)
      else refuse s .badArgument
    | _, _ => refuse s .badArgument
  else refuse s .notPermitted

/-! ## Edit requests (R54 to R58) -/

/-- The checks of an edit request in the order of R54: its own arguments, resolution, lock, key, moves that
hold the record, a save in flight, and its own checks against the record. The resolution keeps its effect
on the cache at every refusal after it (R69). -/
def edit (m : Master) (bank pos : Nat) (arguments : Option RefusalCode)
    (own : State → Nat → Option RefusalCode) (write : State → Nat → Response) (s : State) : Response :=
  match arguments with
  | some c => refuse s c
  | none =>
    match resolve m bank pos s with
    | (s, .fault c) => refuse s c
    | (s, .found r) =>
      if r.locked then refuse s .locked
      else if keysDiffer (viewOf s m).key (recordAt s r.record).key then refuse s .keyMismatch
      else if recordHeld s r.record then refuse s .inUse
      else if s.save.isSome then refuse s .saving
      else
        match own s r.record with
        | some c => refuse s c
        | none => write s r.record

/-- A check of an edit request. -/
def failing (ok : Bool) (c : RefusalCode) : Option RefusalCode := if ok then none else some c

/-- Every entry of a list, where none is absent. -/
def allSome {α : Type} : List (Option α) → Option (List α)
  | [] => some []
  | none :: _ => none
  | some v :: rest => (allSome rest).map (v :: ·)

/-- Whether a duration lies within 1 to 60,000 frames (R45). -/
def durationOk (d : Nat) : Bool := numberWithin 1 60000 d

/-- A keyframe given for an axis set, where R55 accepts it. -/
def keyframeOf (s : State) (x : AxisSet) (k : KeyframeArg) : Option Keyframe :=
  match shapeOf k.shape, flagOf k.gate with
  | some sh, some g =>
    if k.targets.length = axisCount x ∧ k.targets.all isPosition ∧ durationOk k.duration ∧
        ((AxisSet.members x).zip k.targets).all (fun p => softOk s p.1 p.2) then
      some { targets := spread x k.targets, duration := k.duration, shape := sh, gate := g }
    else none
  | _, _ => none

/-- Whether a label has at most 12 characters, each of code 32 to 126 (R44). -/
def labelOk (l : List Octet) : Bool :=
  decide (l.length ≤ 12) && l.all fun o => numberWithin 32 126 o.toNat

/-- A label of no characters is an absent label (R44). -/
def labelOf (l : List Octet) : Option (List Octet) := if l = [] then none else some l

/-- The record body a STORE PRESET gives, where R55 accepts its arguments. -/
def storedBody (s : State) (x : AxisSet) (label : List Octet) (ks : List KeyframeArg) :
    Option RecordBody :=
  match allSome (ks.map (keyframeOf s x)) with
  | some kfs =>
    if x ≠ 0#8 ∧ x &&& ~~~s.settings.fitted = 0#8 ∧ numberWithin 1 8 ks.length ∧ labelOk label then
      some { axes := x, keyframes := kfs, label := labelOf label }
    else none
  | none => none

/-- STORE PRESET (R55). -/
def storePreset (m : Master) (bank pos : Nat) (x : AxisSet) (guarded : Nat) (label : List Octet)
    (ks : List KeyframeArg) (s : State) : Response :=
  match storedBody s x label ks, flagOf guarded with
  | some body, some g =>
    edit m bank pos (failing (addressOk bank pos) .badArgument) (fun _ _ => none)
      (fun s n => accept
        (s.setRecord n { body := some body, key := (viewOf s m).key, guarded := g, author := some m })
        (.stored n)) s
  | _, _ => refuse s .badArgument

/-- The one keyframe of a CAPTURE (R56). -/
def capturedKeyframe (s : State) (x : AxisSet) (duration : Nat) (sh : Shape) (gate : Bool) : Keyframe :=
  { targets := capturedTargets s x, duration := duration, shape := sh, gate := gate }

/-- The label a record holds, if any. -/
def labelKept (r : PresetRecord) : Option (List Octet) := r.body.bind RecordBody.label

/-- Stage 1 of CAPTURE (R56): BAD_AXIS and the empty set as R1 states, then BAD_ARGUMENT. -/
def captureArguments (s : State) (bank pos : Nat) (x : AxisSet) (duration shapeNo : Nat) :
    Option RefusalCode :=
  match axisSetCheck s x with
  | some c => some c
  | none =>
    failing (addressOk bank pos && durationOk duration && (shapeOf shapeNo).isSome) .badArgument

/-- CAPTURE (R56): key, guard flag and label keep the values the record held. -/
def capture (m : Master) (bank pos : Nat) (x : AxisSet) (duration shapeNo : Nat) (s : State) : Response :=
  edit m bank pos (captureArguments s bank pos x duration shapeNo)
    (fun s _ => failing (capturable s x) .outOfLimits)
    (fun s n => accept
      (s.setRecord n { recordAt s n with
        body := some { axes := x
                       keyframes := [capturedKeyframe s x duration ((shapeOf shapeNo).getD .linear) false]
                       label := labelKept (recordAt s n) }
        author := some m })
      (.captured n ((AxisSet.members x).map (d1Of s)))) s

/-- Whether axis and position pairs name the axes of a set one for one (R57). -/
def pairsMatch (x : AxisSet) (ps : List (Nat × Int)) : Bool :=
  decide (ps.length = axisCount x) &&
    (AxisSet.members x).all fun a => ps.any fun p => p.1 == a.number

/-- Stage 1 of APPEND KEYFRAME (R57). -/
def appendArguments (bank pos : Nat) (k : AppendArg) : Option RefusalCode :=
  match k with
  | .explicit ps d sh g =>
    failing (addressOk bank pos && durationOk d && (shapeOf sh).isSome && (flagOf g).isSome &&
      ps.all fun p => isPosition p.2) .badArgument
  | .capture d sh g =>
    failing (addressOk bank pos && durationOk d && (shapeOf sh).isSome && (flagOf g).isSome) .badArgument
  | .unreadable => some .badArgument

/-- The checks of an APPEND KEYFRAME against the record's body (R57). -/
def appendBodyCheck (s : State) (b : RecordBody) (k : AppendArg) : Option RefusalCode :=
  if 8 ≤ b.keyframes.length then some .full
  else
    match k with
    | .explicit ps _ _ _ =>
      if !(pairsMatch b.axes ps) then some .badArgument
      else failing ((AxisSet.members b.axes).all fun a =>
        ((spreadPairs ps).get a).any fun t => softOk s a t) .badArgument
    | .capture _ _ _ =>
      if b.axes &&& ~~~s.settings.fitted ≠ 0#8 then some .badAxis
      else failing (capturable s b.axes) .outOfLimits
    | .unreadable => some .badArgument

/-- Stage 7 of APPEND KEYFRAME (R57). -/
def appendCheck (s : State) (n : Nat) (k : AppendArg) : Option RefusalCode :=
  match (recordAt s n).body with
  | none => some .recordFree
  | some b => appendBodyCheck s b k

/-- The keyframe an APPEND KEYFRAME adds over an axis set. -/
def appendedKeyframe (s : State) (x : AxisSet) (k : AppendArg) : Keyframe :=
  match k with
  | .explicit ps d sh g =>
    { targets := spreadPairs ps, duration := d, shape := (shapeOf sh).getD .linear,
      gate := (flagOf g).getD false }
  | .capture d sh g => capturedKeyframe s x d ((shapeOf sh).getD .linear) ((flagOf g).getD false)
  | .unreadable => capturedKeyframe s x 1 .dwell false

/-- The body with a keyframe at the end of its list. -/
def addKeyframe (b : RecordBody) (k : Keyframe) : RecordBody :=
  { b with keyframes := b.keyframes ++ [k] }

/-- APPEND KEYFRAME accepted on a record (R57): the author changes; key, guard flag, label and earlier
keyframes do not. -/
def appendTo (m : Master) (k : AppendArg) (s : State) (n : Nat) : Response :=
  match (recordAt s n).body with
  | none => refuse s .recordFree
  | some b =>
    accept
      (s.setRecord n { recordAt s n with
        body := some (addKeyframe b (appendedKeyframe s b.axes k)), author := some m })
      (.appended n (b.keyframes.length + 1))

/-- APPEND KEYFRAME (R57). -/
def appendKeyframe (m : Master) (bank pos : Nat) (k : AppendArg) (s : State) : Response :=
  edit m bank pos (appendArguments bank pos k) (fun s n => appendCheck s n k) (appendTo m k) s

/-- ERASE PRESET (R58): key, guard flag and author are kept. -/
def erasePreset (m : Master) (bank pos : Nat) (s : State) : Response :=
  edit m bank pos (failing (addressOk bank pos) .badArgument) (fun _ _ => none)
    (fun s n => accept (s.setRecord n { recordAt s n with body := none }) (.stored n)) s

/-! ## Reading (R59, R60) -/

/-- Whether a record's guard flag refuses a view's key (R59, R66). -/
def guardRefuses (s : State) (m : Master) (n : Nat) : Bool :=
  (recordAt s n).guarded && keysDiffer (viewOf s m).key (recordAt s n).key

/-- How many keyframes of an axis set fit a QUERY PRESET reply: 120 octets less the 2 of the header and the
21 that come before the keyframes, at 3 · n + 4 octets each (R59, R162, 11.7.2; DEDUCED, log entry 20). -/
def keyframesThatFit (x : AxisSet) : Nat := 97 / (3 * axisCount x + 4)

/-- What QUERY PRESET reports of a record from a first keyframe on (R59). -/
def presetReport (s : State) (r : Resolved) (first : Nat) : PresetReport :=
  { record := r.record
    locked := r.locked
    key := (recordAt s r.record).key
    guarded := (recordAt s r.record).guarded
    author := (recordAt s r.record).author
    body := (recordAt s r.record).body.map fun b =>
      { axes := b.axes, label := b.label, count := b.keyframes.length
        keyframes := (b.keyframes.drop first).take (keyframesThatFit b.axes) } }

/-- How many keyframes a QUERY PRESET reply leaves out (R162). -/
def keyframesOmitted (s : State) (n first : Nat) : Nat :=
  match (recordAt s n).body with
  | none => 0
  | some b => (b.keyframes.drop first).length - keyframesThatFit b.axes

/-- QUERY PRESET (R59). -/
def queryPreset (m : Master) (bank pos first : Nat) (s : State) : Response :=
  if addressOk bank pos && decide (first < 8) then
    match resolve m bank pos s with
    | (s, .fault c) => refuse s c
    | (s, .found r) =>
      if guardRefuses s m r.record then refuse s .guarded
      else
        { state := s, posts := []
          reply := { refusal := none, omitted := keyframesOmitted s r.record first
                     data := .preset (presetReport s r first) } }
  else refuse s .badArgument

/-- The sixteen numbers 0 to 15. -/
def sixteen : List Nat := [0, 1, 2, 3, 4, 5, 6, 7, 8, 9, 10, 11, 12, 13, 14, 15]

/-- QUERY DIRECTORY (R60). -/
def queryDirectory (d : Nat) (s : State) : Response :=
  if d < 4 then accept s (.banks (sixteen.map (bankAt s d))) else refuse s .badArgument

/-- QUERY CUE LIST (R60). -/
def queryCueList (l : Nat) (s : State) : Response :=
  if l < 32 then accept s (.cueEntries (sixteen.map (cueAt s l))) else refuse s .badArgument

/-! ## The commands -/

/-- SET_BANK_ENTRY. -/
def execSetBankEntry (h : Header) (directory bank kind locked : Nat) (fields : List Nat) (s : State) :
    Host.Outcome State Fault Refusal :=
  request h (.setBankEntry h.unstamped directory bank kind locked fields)
    (privileged h (setBankEntry directory bank kind locked fields)) s

/-- SET_CUE_ENTRY. -/
def execSetCueEntry (h : Header) (list pos valid locked record : Nat) (s : State) :
    Host.Outcome State Fault Refusal :=
  request h (.setCueEntry h.unstamped list pos valid locked record)
    (privileged h (setCueEntry list pos valid locked record)) s

/-- SET_VIEW. -/
def execSetView (h : Header) (view enabled directory length key : Nat) (s : State) :
    Host.Outcome State Fault Refusal :=
  request h (.setView h.unstamped view enabled directory length key)
    (setView h.link view enabled directory length key) s

/-- STORE_PRESET. -/
def execStorePreset (h : Header) (bank pos : Nat) (x : AxisSet) (guarded : Nat) (label : List Octet)
    (ks : List KeyframeArg) (s : State) : Host.Outcome State Fault Refusal :=
  request h (.storePreset h.unstamped bank pos x guarded label ks)
    (storePreset h.link bank pos x guarded label ks) s

/-- CAPTURE. -/
def execCapture (h : Header) (bank pos : Nat) (x : AxisSet) (duration shapeNo : Nat) (s : State) :
    Host.Outcome State Fault Refusal :=
  request h (.capture h.unstamped bank pos x duration shapeNo)
    (capture h.link bank pos x duration shapeNo) s

/-- APPEND_KEYFRAME. -/
def execAppendKeyframe (h : Header) (bank pos : Nat) (k : AppendArg) (s : State) :
    Host.Outcome State Fault Refusal :=
  request h (.appendKeyframe h.unstamped bank pos k) (appendKeyframe h.link bank pos k) s

/-- ERASE_PRESET. -/
def execErasePreset (h : Header) (bank pos : Nat) (s : State) : Host.Outcome State Fault Refusal :=
  request h (.erasePreset h.unstamped bank pos) (erasePreset h.link bank pos) s

/-- QUERY_PRESET. -/
def execQueryPreset (h : Header) (bank pos first : Nat) (s : State) :
    Host.Outcome State Fault Refusal :=
  request h (.queryPreset h.unstamped bank pos first) (queryPreset h.link bank pos first) s

/-- QUERY_DIRECTORY. -/
def execQueryDirectory (h : Header) (d : Nat) (s : State) : Host.Outcome State Fault Refusal :=
  request h (.queryDirectory h.unstamped d) (queryDirectory d) s

/-- QUERY_CUE_LIST. -/
def execQueryCueList (h : Header) (l : Nat) (s : State) : Host.Outcome State Fault Refusal :=
  request h (.queryCueList h.unstamped l) (queryCueList l) s

/-- QUERY_VIEWS (R60). -/
def execQueryViews (h : Header) (s : State) : Host.Outcome State Fault Refusal :=
  request h (.queryViews h.unstamped) (fun s => accept s (.views s.settings.views)) s

end Sys2Proof.Machine
end

