-- ==== Sys2Proof/Machine/Sequencer.lean ====
section
/-! DEFINITION. The move sequencer (chapter 6): RECALL, the preset step, the requests that act on a move, and
the ways out of the queue. -/

namespace Sys2Proof.Machine

/-! ## Recall (R80 to R83) -/

/-- The id after an id, wrapping from 255 to 1 (R80). -/
def idAfter (n : Nat) : Nat := if n < 255 then n + 1 else 1

/-- The first id from a counter upward that no move of a list holds (R80), within a number of places. -/
def freeId (held : List Nat) : Nat → Nat → Nat
  | 0, n => n
  | places + 1, n => if held.contains n then freeId held places (idAfter n) else n

/-- The id a RECALL is given in a state. -/
def newId (s : State) : Nat := freeId (s.queue.map Move.id) 255 s.nextMoveId

/-- The policies of R81. -/
inductive Policy where
  | queue | cut
  deriving DecidableEq, Repr

/-- The policy an octet names. -/
def policyOf : Nat → Option Policy
  | 0 => some .queue | 1 => some .cut | _ => none

/-- The axis set of a RECALL's filter (R81): ALL stands for the fitted set. -/
def filterSet (s : State) (f : FilterArg) : Option AxisSet :=
  match f.kind with
  | 0 => some s.settings.fitted
  | 1 => some f.axes
  | _ => none

/-- Stages 1 to 3 of R81. -/
def recallArguments (s : State) (bank pos : Nat) (filter : FilterArg) (speed : Nat) (cue : CueArg)
    (policy : Nat) : Option RefusalCode :=
  (match filterSet s filter with
    | some x => axisSetCheck s x
    | none => some .badArgument) <|>
  failing (addressOk bank pos && numberWithin 25 400 speed && (cueOf cue).isSome &&
    (policyOf policy).isSome) .badArgument <|>
  failing (cue.kind != 1 || timecodeValid s.settings.rate cue.timecode) .badTimecode

/-- The record checks of R66. -/
def recordCheck (s : State) (m : Master) (n : Nat) : Option RefusalCode :=
  failing (recordAt s n).body.isSome .recordFree <|> failing (!(guardRefuses s m n)) .guarded

/-- The move's axis set (R81): the record's, the filter's and the fitted set intersected. -/
def moveAxes (s : State) (n : Nat) (filter : AxisSet) : AxisSet :=
  match (recordAt s n).body with
  | none => 0#8
  | some b => b.axes &&& filter &&& s.settings.fitted

/-- Whether a cue has passed (R81 stage 10): a TIMECODE cue at or before a RUNNING counter. -/
def cuePassed (s : State) (c : Cue) : Bool :=
  match c with
  | .timecode t =>
    s.timecode.run == .running &&
      decide (positionInDay s.settings.rate t ≤ positionInDay s.settings.rate s.timecode.counter)
  | .now | .go => false

/-- Whether a policy removes a move for a new axis set (R83). -/
def cutBy (p : Policy) (x : AxisSet) (m : Move) : Bool := p == .cut && shares m.axes x

/-- Stages 6 to 11 of R81. -/
def recallChecks (s : State) (m : Master) (x : AxisSet) (c : Cue) (p : Policy) : Option RefusalCode :=
  failing (x != 0#8) .emptyAxes <|>
  failing (x &&& ~~~(ownedBy s m) == 0#8) .notOwner <|>
  failing (s.faults.safeStop == .normal) .faultStop <|>
  failing (s.bus.state == .running) .busStopped <|>
  failing (!(cuePassed s c)) .cuePassed <|>
  failing (decide ((s.queue.filter fun q => !(cutBy p x q)).length < 8)) .queueFull

/-- The effect of removal DONE or CUT on a move's axes (R95): from RUNNING or GATED its handoffs end. -/
def leaveAxes (s : State) (m : Move) : State := if m.live then endHandoffs m.axes s else s

/-- The CUT removals (R83). -/
def cutMoves (p : Policy) (x : AxisSet) (s : State) : Emit :=
  removeMoves (cutBy p x) (fun _ => .cut) ((s.queue.filter (cutBy p x)).foldl leaveAxes s)

/-- The new move record (R82). -/
def newMove (id : Nat) (m : Master) (n : Nat) (x : AxisSet) (c : Cue) (speed : Nat) : Move :=
  { id := id, requester := m, record := n, axes := x, state := .queued, cue := c,
    satisfied := c == .now, goPending := false, speed := speed, keyframe := none, segment := none,
    stopOutcome := none }

/-- The new move appended, with the first free id from the counter (R80, R82). -/
def appendMove (m : Master) (n : Nat) (x : AxisSet) (c : Cue) (speed : Nat) (s : State) : State :=
  { s with
    queue := s.queue ++ [newMove (newId s) m n x c speed]
    nextMoveId := idAfter (newId s) }

/-- RECALL accepted (R82, R83): the CUT removals, then the new record. The reply lists the ids of the removed moves in
queue order (log entry 33). -/
def recallAccepted (m : Master) (n : Nat) (x : AxisSet) (speed : Nat) (c : Cue) (p : Policy) (s : State) :
    Response :=
  let e := cutMoves p x s
  acceptWith { e with state := appendMove m n x c speed e.state }
    (.recalled (newId e.state) n x ((s.queue.filter (cutBy p x)).map Move.id))

/-- RECALL behind its own arguments and its resolution: stages 5 to 11. -/
def recallResolved (m : Master) (n : Nat) (filter : AxisSet) (speed : Nat) (c : Cue) (p : Policy)
    (s : State) : Response :=
  match recordCheck s m n <|> recallChecks s m (moveAxes s n filter) c p with
  | some code => refuse s code
  | none => recallAccepted m n (moveAxes s n filter) speed c p s

/-- RECALL (R81). -/
def recallMove (m : Master) (bank pos : Nat) (filter : FilterArg) (speed : Nat) (cue : CueArg) (policy : Nat)
    (s : State) : Response :=
  match recallArguments s bank pos filter speed cue policy with
  | some code => refuse s code
  | none =>
    match resolve m bank pos s with
    | (s, .fault code) => refuse s code
    | (s, .found r) =>
      recallResolved m r.record ((filterSet s filter).getD 0#8) speed ((cueOf cue).getD .now)
        ((policyOf policy).getD .queue) s

/-! ## Segments (R86, R87) -/

/-- The segment length L of a duration at a speed (R86). -/
def segmentLength (duration speed : Nat) : Nat := max 1 (ceilDiv (duration * 100) speed)

/-- The start position of an axis from its D1 and its coupling offset: its trim offset counts in TRIM
(R86). -/
def startPosition (s : State) (k : PerAxis Int) (a : Axis) : Int :=
  d1Of s a - k.get a - if (s.blend.get a).mode = .trim then (s.blend.get a).trim else 0

/-- The preset position at e of L (R87). -/
def presetPosition (sh : Shape) (p : Path) (e l : Nat) : Int :=
  match sh with
  | .linear => p.start + ((p.target - p.start) * e).tdiv l
  | .ease => p.start + ((p.target - p.start) * (3 * (e : Int) ^ 2 * l - 2 * (e : Int) ^ 3)).tdiv ((l : Int) ^ 3)
  | .dwell => p.start

/-- A keyframe of a move's record by index. -/
def keyframeAt (s : State) (m : Move) (n : Nat) : Option Keyframe :=
  (recordAt s m.record).body.bind fun b => b.keyframes[n]?

/-- The path of an axis under a keyframe. The record of a queued move has a target for each axis of the
move (R78); an axis without one would stay where it starts. -/
def pathOf (s : State) (k : PerAxis Int) (kf : Keyframe) (a : Axis) : Path :=
  { start := startPosition s k a, target := (kf.targets.get a).getD (startPosition s k a) }

/-- The segment that begins for a keyframe of a move (R86), with e at 0. -/
def newSegment (s : State) (k : PerAxis Int) (kf : Keyframe) (m : Move) : Segment :=
  { shape := kf.shape
    paths := PerAxis.ofFn fun a => if AxisSet.has m.axes a then some (pathOf s k kf a) else none
    elapsed := 0
    length := segmentLength kf.duration m.speed }

/-- A segment one frame on. -/
def Segment.next (g : Segment) : Segment := { g with elapsed := g.elapsed + 1 }

/-- The preset positions a segment gives, written for the axes of a set (R87). -/
def writePresets (x : AxisSet) (g : Segment) (s : State) : State :=
  { s with blend := PerAxis.ofFn fun a =>
      match if AxisSet.has x a then g.paths.get a else none with
      | some p => { s.blend.get a with preset := presetPosition g.shape p g.elapsed g.length }
      | none => s.blend.get a }

/-- The state with the record of a move written in its place. -/
def writeMove (m : Move) (s : State) : State := { s with queue := replaceMove m.id (fun _ => m) s.queue }

/-- A move advances by one frame in a segment (R87). -/
def advance (m : Move) (g : Segment) (s : State) : State :=
  writePresets m.axes g.next (writeMove { m with segment := some g.next } s)

/-- A keyframe of a move begins and advances by one frame; the move is RUNNING. -/
def begin (k : PerAxis Int) (n : Nat) (kf : Keyframe) (m : Move) (s : State) : State :=
  advance { m with state := .running, keyframe := some n } (newSegment s k kf m) s

/-! ## The preset step (R85, R88, R89) -/

/-- Whether a keyframe may begin for a move: it is not gated, or go-pending is set. -/
def gateOpen (kf : Keyframe) (m : Move) : Bool := !kf.gate || m.goPending

/-- The move with go-pending spent on a gate. -/
def Move.spendGo (kf : Keyframe) (m : Move) : Move :=
  { m with goPending := m.goPending && !kf.gate }

/-- A move removed DONE (R95). -/
def finish (m : Move) (s : State) : Emit :=
  removeMoves (fun q => q.id == m.id) (fun _ => .done) (endHandoffs m.axes s)

/-- A boundary (R88): the last keyframe ends the move, another begins or gates it. -/
def boundary (k : PerAxis Int) (m : Move) (s : State) : Emit :=
  match keyframeAt s m (m.keyframe.getD 0 + 1) with
  | none => finish m s
  | some kf =>
    if gateOpen kf m then quiet (begin k (m.keyframe.getD 0 + 1) kf (m.spendGo kf) s)
    else quiet (writeMove { m with state := .gated } s)

/-- The keyframe a GATED move waits at (R85). -/
def gatedKeyframe (m : Move) : Nat :=
  match m.segment with
  | none => 0
  | some _ => m.keyframe.getD 0 + 1

/-- The first pass on one move (R85). -/
def takeMove (k : PerAxis Int) (m : Move) (s : State) : Emit :=
  match m.state with
  | .running =>
    match m.segment with
    | none => quiet s
    | some g => if g.elapsed < g.length then quiet (advance m g s) else boundary k m s
  | .gated =>
    match keyframeAt s m (gatedKeyframe m) with
    | none => quiet s
    | some kf =>
      if m.goPending then quiet (begin k (gatedKeyframe m) kf { m with goPending := false } s)
      else quiet s
  | .stopping | .queued => quiet s

/-- The mode of an axis at a move's start (R89). -/
def Blend.toPreset (b : Blend) : Blend :=
  if b.mode = .trim then b else { b with mode := .preset, trim := 0, weight := 0 }

/-- The start positions of a move that gates at its start, as preset positions (R89 step 5). -/
def presetStarts (k : PerAxis Int) (x : AxisSet) (s : State) : State :=
  { s with blend := PerAxis.ofFn fun a =>
      if AxisSet.has x a then { s.blend.get a with preset := startPosition s k a } else s.blend.get a }

/-- MOVE_STARTED (R99). -/
def startedPosts (m : Move) (st : MoveState) (s : State) : List Post :=
  withSupervisor s m.requester
    (.moveStarted m.id m.record m.axes st s.bus.frameNumber s.timecode.counter)

/-- A move starts (R89). -/
def startMove (k : PerAxis Int) (m : Move) (s : State) : Emit :=
  match keyframeAt s m 0 with
  | none => quiet s
  | some kf =>
    let s := { s with blend := mapAt m.axes Blend.toPreset s.blend }
    if gateOpen kf m then
      { state := begin k 0 kf (m.spendGo kf) s, posts := startedPosts m .running s }
    else
      { state := presetStarts k m.axes (writeMove { m with state := .gated, keyframe := some 0 } s)
        posts := startedPosts m .gated s }

/-- Whether a move may start, given the axes of the moves before it (R79). -/
def eligible (before : AxisSet) (m : Move) : Bool :=
  m.state == .queued && m.satisfied && !(shares m.axes before)

/-- The second pass, in queue order (R85, R89). -/
def startPass (k : PerAxis Int) : AxisSet → List Move → State → Emit
  | _, [], s => quiet s
  | before, m :: rest, s =>
    (whenever (eligible before m) (startMove k m) s).andThen (startPass k (before ||| m.axes) rest)

/-- The preset step (R85), on the coupling offsets of the frame computation. -/
def presetStep (k : PerAxis Int) (s : State) : Emit :=
  (emitEach s.queue (takeMove k) s).andThen fun s => startPass k 0#8 s.queue s

/-! ## The rest test (R91) -/

/-- Whether an axis shows D1 = D2. -/
def atRest (s : State) (a : Axis) : Bool := (s.demand.get a).d1 == (s.demand.get a).d2

/-- Whether a move is STOPPING with all its axes at rest. -/
def stopped (s : State) (m : Move) : Bool :=
  m.state == .stopping && (AxisSet.members m.axes).all (atRest s)

/-- The outcome a STOPPING move leaves with. -/
def stoppedOutcome (m : Move) : MoveOutcome :=
  match m.stopOutcome with
  | some .fault => .fault
  | some .aborted | none => .aborted

/-- The rest test of STOPPING moves (R91). -/
def restTest (s : State) : Emit := removeMoves (stopped s) stoppedOutcome s

/-! ## Acting on a move (R90 to R93) -/

/-- The masters that may act on a move: its requester and the supervisor, or Console A in standalone mode
(R90). -/
def mayAct (s : State) (requester : Master) (m : Move) : Bool :=
  requester == m.requester || actsAsSupervisor s requester

/-- A request on a move by id: UNKNOWN_MOVE comes first, then NOT_PERMITTED (R90). -/
def onMove (requester : Master) (id : Nat) (act : Move → State → Response) (s : State) : Response :=
  match findMove s id with
  | none => refuse s .unknownMove
  | some m => if mayAct s requester m then act m s else refuse s .notPermitted

/-- Whether a GO satisfies the cue of a move (R90). -/
def goSatisfies (m : Move) : Bool := m.state == .queued && m.cue == .go && !m.satisfied

/-- GO on a move (R90). -/
def goOn (m : Move) (s : State) : Response :=
  if m.goPending then accept s (.went .noChange)
  else if goSatisfies m then accept (writeMove { m with satisfied := true } s) (.went .cueSatisfied)
  else accept (writeMove { m with goPending := true } s) (.went .goPending)

/-- GO (R90). -/
def go (requester : Master) (id : Nat) : State → Response := onMove requester id goOn

/-- The modes an ABORT gives the axes of a move (R91). -/
def abortModes (x : AxisSet) (s : State) : PerAxis Blend :=
  mapAt (x &&& ~~~(handoffAxes s x)) Blend.toHold (mapAt (handoffAxes s x) Blend.endHandoff s.blend)

/-- An ABORT that makes a move STOPPING (R91): its HANDOFF axes leave it. -/
def stopMove (m : Move) (s : State) : Emit :=
  withdrawWith (handoffAxes s m.axes) (fun q => if q.id = m.id then .aborted else .withdrawn)
    (writeMove { m with state := .stopping, stopOutcome := some .aborted }
      { s with blend := abortModes m.axes s })

/-- ABORT of a move by its state (R91). -/
def abortMove (m : Move) (s : State) : Emit :=
  match m.state with
  | .queued => removeMoves (fun q => q.id == m.id) (fun _ => .aborted) s
  | .running | .gated => stopMove m s
  | .stopping => quiet s

/-- ABORT (R91). -/
def abort (requester : Master) (id : Nat) : State → Response :=
  onMove requester id fun m s => acceptWith (abortMove m s) .none

/-- SPEED (R92). -/
def speedMove (requester : Master) (id speed : Nat) : State → Response :=
  onMove requester id fun m s =>
    if numberWithin 25 400 speed then accept (writeMove { m with speed := speed } s) .none
    else refuse s .badArgument

/-- QUERY QUEUE (R93). How many move records fit the reply is a free value (log entry 8). -/
def queryQueue (s : State) : Response :=
  acceptItems (drawn s) (Config.replyItemsThatFit s.freeDraws) s.queue fun l => .queue l s.nextMoveId

/-! ## Timecode and the queue (R96) -/

/-- The cue of a move waiting on timecode. -/
def waitingCue (m : Move) : Option Timecode :=
  if m.state = .queued ∧ m.satisfied = false then
    match m.cue with
    | .timecode t => some t
    | .now | .go => none
  else none

/-- A cue match (R123): the waiting moves cued at a value are satisfied. -/
def cueMatch (value : Timecode) (s : State) : State :=
  { s with queue := s.queue.map fun m =>
      if waitingCue m = some value then { m with satisfied := true } else m }

/-- The waiting moves whose cue satisfies a test removed CUE_MISSED (R96). -/
def missCues (p : Timecode → Bool) (s : State) : Emit :=
  removeMoves (fun m => (waitingCue m).any p) (fun _ => .cueMissed) s

/-! ## The commands -/

/-- RECALL. -/
def execRecall (h : Header) (bank pos : Nat) (filter : FilterArg) (speed : Nat) (cue : CueArg)
    (policy : Nat) (s : State) : Host.Outcome State Fault Refusal :=
  request h (.recallCue h.unstamped bank pos filter speed cue policy)
    (recallMove h.link bank pos filter speed cue policy) s

/-- GO. -/
def execGo (h : Header) (id : Nat) (s : State) : Host.Outcome State Fault Refusal :=
  request h (.go h.unstamped id) (go h.link id) s

/-- ABORT. -/
def execAbort (h : Header) (id : Nat) (s : State) : Host.Outcome State Fault Refusal :=
  request h (.abort h.unstamped id) (abort h.link id) s

/-- SPEED. -/
def execSpeed (h : Header) (id speed : Nat) (s : State) : Host.Outcome State Fault Refusal :=
  request h (.speed h.unstamped id speed) (speedMove h.link id speed) s

/-- QUERY_QUEUE. -/
def execQueryQueue (h : Header) (s : State) : Host.Outcome State Fault Refusal :=
  request h (.queryQueue h.unstamped) queryQueue s

end Sys2Proof.Machine
end

