-- ==== Sys2Proof/Machine/Blend.lean ====
section
/-! DEFINITION. The blend engine (chapter 7): mode requests, the coupling table, the base demand by mode with
the handoff progression, and the readings. -/

namespace Sys2Proof.Machine

/-! ## Mode requests (R107 to R110) -/

/-- What a mode request gives one axis: its outcome, its blend record, and whether the axis is withdrawn
from the moves that hold it. -/
structure ModeVerdict where
  outcome : AxisOutcome
  blend : Blend
  leaves : Bool
  deriving DecidableEq, Repr

/-- An outcome that changes nothing. -/
def ModeVerdict.keep (o : AxisOutcome) (b : Blend) : ModeVerdict :=
  { outcome := o, blend := b, leaves := false }

/-- A change to LIVE (R107): an axis of an active move is withdrawn. -/
def liveVerdict (s : State) (a : Axis) : ModeVerdict :=
  if (s.blend.get a).mode = .live then .keep .live (s.blend.get a)
  else { outcome := .live, blend := (s.blend.get a).toLive, leaves := inActiveMove s a }

/-- A change to TRIM (R107): from PRESET alone. -/
def trimVerdict (b : Blend) : ModeVerdict :=
  if b.mode = .preset then .keep .trim { b with mode := .trim, trim := 0 } else .keep .badMode b

/-- SET MODE on an owned axis (R107). Modes other than LIVE, HOLD and TRIM are refused before. -/
def setModeVerdict (asked : Mode) (s : State) (a : Axis) : ModeVerdict :=
  match asked with
  | .live => liveVerdict s a
  | .hold => .keep .hold (s.blend.get a).toHold
  | .trim => trimVerdict (s.blend.get a)
  | .preset | .handoff => .keep .badMode (s.blend.get a)

/-- The handoff step of a number of frames (R110). -/
def handoffStep (frames : Nat) : Nat := ceilDiv 256 frames

/-- The live track a handoff starts from: D1 − K within the position range (R110). -/
def firstLiveTrack (s : State) (a : Axis) : Int :=
  clampTo positionMin positionMax (d1Of s a - couplingOffset s a)

/-- TAKE LIVE on an owned axis (R110). A PRESET or TRIM axis without a RUNNING or GATED move, and a
HANDOFF axis without one, which no run reaches, are as log entry 14 says. -/
def takeLiveVerdict (frames : Nat) (s : State) (a : Axis) : ModeVerdict :=
  match (s.blend.get a).mode with
  | .preset | .trim =>
    if inLiveMove s a then
      .keep .handoff { s.blend.get a with
        mode := .handoff, weight := 0, step := handoffStep frames, live := firstLiveTrack s a }
    else liveVerdict s a
  | .hold | .live => liveVerdict s a
  | .handoff => .keep .handoff { s.blend.get a with step := handoffStep frames }

/-- The verdict of an axis the requester may not own (R107). -/
def ownedVerdict (m : Master) (s : State) (v : Axis → ModeVerdict) (a : Axis) : ModeVerdict :=
  if ownerOf s a = some m then v a else .keep .notOwner (s.blend.get a)

/-- A mode request taken whole: the blend records, then the withdrawals (R94, R107). -/
def modeEvent (x : AxisSet) (v : Axis → ModeVerdict) (s : State) : Response :=
  acceptWith
    (withdraw (AxisSet.ofTest fun a => AxisSet.has x a && (v a).leaves)
      { s with blend := PerAxis.ofFn fun a => if AxisSet.has x a then (v a).blend else s.blend.get a })
    (.outcomes ((AxisSet.members x).map fun a => (v a).outcome))

/-- A mode request behind its request-level checks (R107). -/
def modeRequest (m : Master) (x : AxisSet) (argumentOk : Bool) (v : State → Axis → ModeVerdict)
    (s : State) : Response :=
  match axisSetCheck s x <|> failing argumentOk .badArgument <|>
      failing (s.faults.safeStop == .normal) .faultStop with
  | some c => refuse s c
  | none => modeEvent x (ownedVerdict m s (v s)) s

/-- SET MODE (R107). -/
def setMode (m : Master) (x : AxisSet) (mode : Nat) : State → Response :=
  modeRequest m x (askedMode mode).isSome (setModeVerdict ((askedMode mode).getD .hold))

/-- TAKE LIVE (R110). -/
def takeLive (m : Master) (x : AxisSet) (frames : Nat) : State → Response :=
  modeRequest m x (numberWithin 1 4000 frames) (takeLiveVerdict frames)

/-! ## Coupling (R106) -/

/-- The fields of a coupling entry, where they lie within their ranges. -/
def couplingOf (enabled source target : Nat) (gain : Int) : Option Coupling :=
  match flagOf enabled, Axis.ofNumber? source, Axis.ofNumber? target with
  | some e, some a, some b =>
    if a ≠ b ∧ within (-2048) 2047 gain then
      some { enabled := e, source := a, target := b, gain := gain, reference := 0 }
    else none
  | _, _, _ => none

/-- Step 1 of R106: a LIVE target takes the old entry's term into its base demand. -/
def absorbTerm (c : Coupling) (s : State) : State :=
  if c.enabled && AxisSet.has s.settings.fitted c.target && (s.blend.get c.target).mode == .live then
    s.setBlend c.target
      { s.blend.get c.target with base := (s.blend.get c.target).base + couplingTerm s c }
  else s

/-- The state with one coupling entry replaced. -/
def State.setCouplingEntry (s : State) (n : Fin 4) (c : Coupling) : State :=
  { s with couplings := s.couplings.set n c }

/-- Steps 2 and 3 of R106: an enabled entry takes the source's D1 as its reference, any other keeps the
reference it held. -/
def rewriteCoupling (n : Fin 4) (c : Coupling) (s : State) : State :=
  s.setCouplingEntry n
    { c with reference := if c.enabled then d1Of s c.source else s.couplings[n].reference }

/-- SET COUPLING (R106). -/
def setCoupling (entry enabled source target : Nat) (gain : Int) (s : State) : Response :=
  if enabled = 1 ∧ (namesUnfitted s source ∨ namesUnfitted s target) then refuse s .badAxis
  else
    match couplingOf enabled source target gain with
    | some c =>
      if h : entry < 4 then
        accept (rewriteCoupling ⟨entry, h⟩ c (absorbTerm s.couplings[entry] s)) .none
      else refuse s .badArgument
    | none => refuse s .badArgument

/-! ## The frame computation, stage 2 (R103, R111) -/

/-- TRIM at stage 2: the offset moved within the trim range, the base demand on the preset position. -/
def trimmed (range : Nat) (v : Int) (b : Blend) : Blend :=
  { b with
    trim := clampTo (-range) range (b.trim + v)
    base := b.preset + clampTo (-range) range (b.trim + v) }

/-- The blend of a handoff at a weight, on its live track (R111 step 3). -/
def crossfade (b : Blend) (w : Nat) (h : Int) : Int :=
  ((b.preset + b.trim) * (256 - w) + h * w).tdiv 256

/-- HANDOFF at stage 2, steps 1 to 3 of R111. -/
def progressed (v : Int) (b : Blend) : Blend :=
  let h := clampTo positionMin positionMax (b.live + v)
  let w := min 256 (b.weight + b.step)
  { b with live := h, weight := w, base := crossfade b w h }

/-- Step 4 of R111: at weight 256 the handoff is complete. -/
def completed (b : Blend) : Blend := if b.weight = 256 then b.endHandoff else b

/-- The blend record of an axis after stage 2, from its D1, its coupling offset, its owner's shaped velocity
and its trim range (R103). -/
def baseStage (d1 k v : Int) (range : Nat) (b : Blend) : Blend :=
  match b.mode with
  | .hold => { b with base := d1 - k }
  | .live => { b with base := b.base + v }
  | .preset => { b with base := b.preset }
  | .trim => trimmed range v b
  | .handoff => completed (progressed v b)

/-- Stage 2 on the driven axes, then the withdrawal of the axes whose handoff completed (R111). -/
def stageTwo (driven : AxisSet) (k : PerAxis Int) (s : State) : Emit :=
  let after := PerAxis.ofFn fun a =>
    if AxisSet.has driven a then
      baseStage (d1Of s a) (k.get a) (shapedVelocity s a) (s.settings.limits.get a).trimRange (s.blend.get a)
    else s.blend.get a
  withdraw (AxisSet.ofTest fun a =>
      (s.blend.get a).mode == .handoff && (after.get a).mode == .live) { s with blend := after }

/-! ## Reading (R117) -/

/-- The active move that holds an axis. -/
def activeMoveOf (s : State) (a : Axis) : Option Nat :=
  (s.queue.find? fun m => m.active && AxisSet.has m.axes a).map Move.id

/-- What QUERY BLEND returns of one axis (R117). -/
def blendReport (s : State) (a : Axis) : BlendReport :=
  { blend := s.blend.get a, offset := couplingOffset s a, demand := s.demand.get a,
    move := activeMoveOf s a }

/-- QUERY BLEND (R117). How many axes fit the reply is a free value (log entry 8). -/
def queryBlend (x : AxisSet) (s : State) : Response :=
  match axisSetCheck s x with
  | some c => refuse s c
  | none =>
    acceptItems (drawn s) (Config.replyItemsThatFit s.freeDraws)
      ((AxisSet.members x).map (blendReport s)) .blend

/-! ## The commands -/

/-- SET_MODE. -/
def execSetMode (h : Header) (x : AxisSet) (mode : Nat) (s : State) : Host.Outcome State Fault Refusal :=
  request h (.setMode h.unstamped x mode) (setMode h.link x mode) s

/-- TAKE_LIVE. -/
def execTakeLive (h : Header) (x : AxisSet) (frames : Nat) (s : State) :
    Host.Outcome State Fault Refusal :=
  request h (.takeLive h.unstamped x frames) (takeLive h.link x frames) s

/-- SET_COUPLING. -/
def execSetCoupling (h : Header) (entry enabled source target : Nat) (gain : Int) (s : State) :
    Host.Outcome State Fault Refusal :=
  request h (.setCoupling h.unstamped entry enabled source target gain)
    (privileged h (setCoupling entry enabled source target gain)) s

/-- QUERY_BLEND. -/
def execQueryBlend (h : Header) (x : AxisSet) (s : State) : Host.Outcome State Fault Refusal :=
  request h (.queryBlend h.unstamped x) (queryBlend x) s

/-- QUERY_COUPLING (R117): the four entries in entry order. -/
def execQueryCoupling (h : Header) (s : State) : Host.Outcome State Fault Refusal :=
  request h (.queryCoupling h.unstamped) (fun s => accept s (.couplings s.couplings)) s

end Sys2Proof.Machine
end

