-- ==== Sys2Proof/Machine/Limiter.lean ====
section
/-! DEFINITION. Axis channels and demand limits (chapter 1): the limiter, the clamped condition, the zone
check and arming, released tracking, and the requests of the channels and zones. -/

namespace Sys2Proof.Machine

/-! ## The limiter (R7, R8) -/

/-- The velocity of steps 1 to 3 of R7 for a raw demand. -/
def limitedVelocity (l : Limits) (d : Demand) (raw : Int) : Int :=
  clampTo (-l.vmax) l.vmax
    (clampTo (d.d1 - d.d2 - l.amax) (d.d1 - d.d2 + l.amax) (raw - d.d1))

/-- C before the clamp of step 4. -/
def unclamped (l : Limits) (d : Demand) (raw : Int) : Int := d.d1 + limitedVelocity l d raw

/-- The candidate demand C of steps 1 to 4 (R7). -/
def candidate (l : Limits) (d : Demand) (raw : Int) : Int :=
  clampTo l.softMin l.softMax (unclamped l d raw)

/-- Whether step 4 changed C (R8). -/
def stepFourClamps (l : Limits) (d : Demand) (raw : Int) : Bool :=
  candidate l d raw != unclamped l d raw

/-- The state with the clamped condition of one axis written. -/
def setClamped (a : Axis) (b : Bool) (s : State) : State := { s with clamped := s.clamped.set a b }

/-- Step 5 for one axis (R8): AXIS_LIMIT is raised on the entry into CLAMPED. -/
def judgeClamp (changed : Bool) (a : Axis) (s : State) : Emit :=
  whenever (changed && !(s.clamped.get a)) (raise .axisLimit (RaiseInfo.ofAxes a.alone))
    (setClamped a changed s)

/-! ## The zone check (R12) and arming (R13) -/

/-- The eight zone numbers in order. -/
def zoneNumbers : List (Fin 8) := [0, 1, 2, 3, 4, 5, 6, 7]

/-- A table of the zones from a rule for each. -/
def eachZone {α : Type} (f : Fin 8 → α) : Vector α 8 := #v[f 0, f 1, f 2, f 3, f 4, f 5, f 6, f 7]

/-- Whether the values of a zone's axes are inside it (R10): both bounds count as within. -/
def inside (z : ZoneSetting) (v : PerAxis Int) : Bool :=
  (AxisSet.members z.axes).all fun a => within (z.bounds.get a).lo (z.bounds.get a).hi (v.get a)

/-- Whether every axis of a zone is ENABLED. -/
def allEnabled (s : State) (z : ZoneSetting) : Bool := (AxisSet.members z.axes).all (isEnabled s)

/-- D1 of every axis. -/
def demands (s : State) : PerAxis Int := PerAxis.ofFn (d1Of s)

/-- The candidates as the zone check has left them, and the zones that replaced some, in order. -/
structure ZonePass where
  candidates : PerAxis Int
  entered : List (Fin 8)
  deriving DecidableEq, Repr

/-- One zone of the check (R12): armed, all its axes ENABLED and their candidates inside, it replaces each
with D1. -/
def checkZone (s : State) (p : ZonePass) (n : Fin 8) : ZonePass :=
  if s.settings.zones[n].enabled && s.armed[n] && allEnabled s s.settings.zones[n] &&
      inside s.settings.zones[n] p.candidates then
    { candidates := PerAxis.ofFn fun a =>
        if AxisSet.has s.settings.zones[n].axes a then d1Of s a else p.candidates.get a
      entered := p.entered ++ [n] }
  else p

/-- The zone check over the candidates of a frame, zones 0 to 7 (R12). -/
def zoneCheck (s : State) (c : PerAxis Int) : ZonePass :=
  zoneNumbers.foldl (checkZone s) { candidates := c, entered := [] }

/-- The armed flags after the zone check: cleared where an axis of an enabled zone is RELEASED (R12). -/
def disarmReleased (s : State) : State :=
  { s with armed := eachZone fun n =>
      s.armed[n] && !(s.settings.zones[n].enabled && !(allEnabled s s.settings.zones[n])) }

/-- ZONE_ENTRY of a zone (R12). -/
def raiseZoneEntry (n : Fin 8) (s : State) : Emit :=
  raise .zoneEntry
    { axes := some s.settings.zones[n].axes, zone := some n, master := none } s

/-- The arming test (R13): an enabled zone whose axes' D1 are not inside it is armed. -/
def armZones (s : State) : State :=
  { s with armed := eachZone fun n =>
      s.armed[n] || (s.settings.zones[n].enabled && !(inside s.settings.zones[n] (demands s))) }

/-! ## Released tracking (R9) -/

/-- Released tracking of the fitted axes that are RELEASED, on the coupling offsets of the frame. -/
def releasedTracking (x : AxisSet) (k : PerAxis Int) (s : State) : State :=
  { s with
    demand := PerAxis.ofFn fun a =>
      if AxisSet.has x a then
        { d1 := (s.bus.drives.get a).feedback, d2 := (s.bus.drives.get a).feedback }
      else s.demand.get a
    blend := PerAxis.ofFn fun a =>
      if AxisSet.has x a then
        { (s.blend.get a).toHold with base := (s.bus.drives.get a).feedback - k.get a }
      else s.blend.get a
    clamped := PerAxis.ofFn fun a => if AxisSet.has x a then false else s.clamped.get a }

/-! ## SET FITTED (R2) -/

/-- Whether a channel is in use: owned, waited for, or held by a move (R2). -/
def channelInUse (s : State) (a : Axis) : Bool :=
  (ownerOf s a).isSome || !((s.authority.get a).waiting.isEmpty) ||
    s.queue.any fun m => AxisSet.has m.axes a

/-- The zones with the enabled flag cleared where an axis leaves the fitted set (R2). -/
def zonesWithout (x : AxisSet) (zs : Vector ZoneSetting 8) : Vector ZoneSetting 8 :=
  eachZone fun n => { zs[n] with enabled := zs[n].enabled && !(shares zs[n].axes x) }

/-- SET FITTED on acceptance (R2). -/
def refit (x : AxisSet) (s : State) : State :=
  let leaving := s.settings.fitted &&& ~~~x
  { s with
    settings := { s.settings with fitted := x, zones := zonesWithout leaving s.settings.zones }
    armed := eachZone fun n => s.armed[n] && !(shares s.settings.zones[n].axes leaving) }

/-- SET FITTED (R2). -/
def setFitted (x : AxisSet) (s : State) : Response :=
  if s.bus.state = .running then refuse s .busRunning
  else if (AxisSet.members (s.settings.fitted &&& ~~~x)).any (channelInUse s) then refuse s .axisInUse
  else accept (refit x s) .none

/-! ## SET LIMITS (R5) -/

/-- Whether seven settings lie within their ranges (R4), the soft minimum below the soft maximum. -/
def limitsOk (l : Limits) : Bool :=
  isPosition l.softMin && isPosition l.softMax && decide (l.softMin < l.softMax) &&
    numberWithin 1 65535 l.vmax && numberWithin 1 65535 l.amax &&
    numberWithin 0 1048575 l.trimRange && numberWithin 0 1048575 l.followingLimit &&
    numberWithin 1 255 l.followingPersistence

/-- Whether a demand history keeps the laws of R6 under some limits. -/
def historyFits (l : Limits) (d : Demand) : Bool :=
  within l.softMin l.softMax d.d1 && decide ((d.d1 - d.d2).natAbs ≤ l.vmax)

/-- The following count after SET LIMITS (R5): 0 where the limit or the persistence changed. -/
def followingAfter (old new : Limits) (count : Nat) : Nat :=
  if old.followingLimit = new.followingLimit ∧ old.followingPersistence = new.followingPersistence
  then count else 0

/-- SET LIMITS on acceptance (R5). -/
def relimit (a : Axis) (l : Limits) (s : State) : State :=
  let b := s.blend.get a
  let d := s.bus.drives.get a
  { s with
    settings := { s.settings with limits := s.settings.limits.set a l }
    blend := s.blend.set a { b with trim := clampTo (-(l.trimRange : Int)) l.trimRange b.trim }
    bus := { s.bus with
      drives := s.bus.drives.set a
        { d with following := followingAfter (s.settings.limits.get a) l d.following } } }

/-- SET LIMITS (R5). -/
def setLimits (axis : Nat) (l : Limits) (s : State) : Response :=
  if namesUnfitted s axis then refuse s .badAxis
  else
    match Axis.ofNumber? axis with
    | none => refuse s .badArgument
    | some a =>
      if limitsOk l then
        if isEnabled s a && !(historyFits l (s.demand.get a)) then refuse s .outOfLimits
        else accept (relimit a l s) .none
      else refuse s .badArgument

/-! ## SET ZONE (R11) -/

/-- Whether bounds lie in the position range with no minimum above its maximum (R10). -/
def boundsOk (b : Int × Int) : Bool := isPosition b.1 && isPosition b.2 && decide (b.1 ≤ b.2)

/-- The zone a SET ZONE gives, where its arguments are accepted (R11). -/
def zoneOf (enabled : Nat) (x : AxisSet) (bounds : List (Int × Int)) : Option ZoneSetting :=
  match flagOf enabled with
  | some e =>
    if numberWithin 2 3 (axisCount x) ∧ bounds.length = axisCount x ∧ bounds.all boundsOk then
      some { enabled := e, axes := x, bounds := spreadBounds x bounds }
    else none
  | none => none

/-- SET ZONE on acceptance (R11): an enabled zone is armed unless the D1 values are inside it. -/
def rezone (n : Fin 8) (z : ZoneSetting) (s : State) : State :=
  { s with
    settings := { s.settings with zones := s.settings.zones.set n z }
    armed := s.armed.set n (z.enabled && !(inside z (demands s))) }

/-- SET ZONE (R11). -/
def setZone (zone enabled : Nat) (x : AxisSet) (bounds : List (Int × Int)) (s : State) : Response :=
  if x &&& ~~~s.settings.fitted ≠ 0#8 then refuse s .badAxis
  else
    match zoneOf enabled x bounds with
    | some z => if h : zone < 8 then accept (rezone ⟨zone, h⟩ z s) .none else refuse s .badArgument
    | none => refuse s .badArgument

/-! ## Reading (R14) -/

/-- What QUERY LIMITS returns of a channel (R14). -/
def limitsReport (s : State) (a : Axis) : LimitsReport :=
  { fitted := AxisSet.has s.settings.fitted a, limits := s.settings.limits.get a,
    demand := s.demand.get a, clamped := s.clamped.get a }

/-- QUERY LIMITS (R14). -/
def queryLimits (axis : Nat) (s : State) : Response :=
  match Axis.ofNumber? axis with
  | some a => accept s (.limits (limitsReport s a))
  | none => refuse s .badArgument

/-- QUERY ZONES (R14). That an item is a zone is the model's choice, and how many fit the reply is a free value
(log entry 8). -/
def queryZones (s : State) : Response :=
  acceptItems (drawn s) (Config.replyItemsThatFit s.freeDraws)
    (zoneNumbers.map fun n => { zone := s.settings.zones[n], armed := s.armed[n] }) .zones

/-! ## The commands -/

/-- SET_FITTED. -/
def execSetFitted (h : Header) (x : AxisSet) (s : State) : Host.Outcome State Fault Refusal :=
  request h (.setFitted h.unstamped x) (privileged h (setFitted x)) s

/-- SET_LIMITS. -/
def execSetLimits (h : Header) (axis : Nat) (softMin softMax : Int)
    (vmax amax trimRange followingLimit followingPersistence : Nat) (s : State) :
    Host.Outcome State Fault Refusal :=
  request h (.setLimits h.unstamped axis softMin softMax vmax amax trimRange followingLimit
      followingPersistence)
    (privileged h (setLimits axis
      { softMin := softMin, softMax := softMax, vmax := vmax, amax := amax, trimRange := trimRange,
        followingLimit := followingLimit, followingPersistence := followingPersistence })) s

/-- SET_ZONE. -/
def execSetZone (h : Header) (zone enabled : Nat) (x : AxisSet) (bounds : List (Int × Int))
    (s : State) : Host.Outcome State Fault Refusal :=
  request h (.setZone h.unstamped zone enabled x bounds) (privileged h (setZone zone enabled x bounds)) s

/-- QUERY_LIMITS. -/
def execQueryLimits (h : Header) (axis : Nat) (s : State) : Host.Outcome State Fault Refusal :=
  request h (.queryLimits h.unstamped axis) (queryLimits axis) s

/-- QUERY_ZONES. -/
def execQueryZones (h : Header) (s : State) : Host.Outcome State Fault Refusal :=
  request h (.queryZones h.unstamped) queryZones s

end Sys2Proof.Machine
end

