-- ==== Sys2Proof/Machine/Frame.lean ====
section
/-! DEFINITION. A frame of the drive bus taken whole: transmit, receive, the three feedback checks (R135 to
R138), and the frame computation of the blend engine with the tests that follow it (R102). -/

namespace Sys2Proof.Machine

/-! ## Transmit and receive (R135 steps 1 and 2) -/

/-- The fitted axes, in channel order. -/
def fittedAxes (s : State) : List Axis := AxisSet.members s.settings.fitted

/-- The state with the drive items of the fitted axes rewritten. -/
def updateDrives (f : Axis → Drive → Drive) (s : State) : State :=
  { s with bus := { s.bus with
      drives := PerAxis.ofFn fun a =>
        if AxisSet.has s.settings.fitted a then f a (s.bus.drives.get a) else s.bus.drives.get a } }

/-- The demand word of an axis (R135). -/
def demandWord (s : State) (seq : BitVec 8) (a : Axis) : SentWord :=
  { position := d1Of s a, enabled := isEnabled s a, sequence := seq }

/-- The sixteen slot numbers in order. -/
def slotNumbers : List (Fin 16) := [0, 1, 2, 3, 4, 5, 6, 7, 8, 9, 10, 11, 12, 13, 14, 15]

/-- A table of the slots from a rule for each. -/
def eachSlot {α : Type} (f : Fin 16 → α) : Vector α 16 :=
  #v[f 0, f 1, f 2, f 3, f 4, f 5, f 6, f 7, f 8, f 9, f 10, f 11, f 12, f 13, f 14, f 15]

/-- What the part puts into a slot: the demand word of a fitted axis into its DEMAND slot, nothing elsewhere. -/
def slotContent (s : State) (seq : BitVec 8) : Slot → Option SentWord
  | .demand a => if AxisSet.has s.settings.fitted a then some (demandWord s seq a) else none
  | .unused | .feedback _ => none

/-- Step 1: the sequence advances, the word of each fitted axis goes into its DEMAND slot and is kept. -/
def transmit (s : State) : State :=
  updateDrives (fun a d =>
      { d with sent := some (demandWord s (s.bus.sequence + 1#8) a), sentBefore := d.sent })
    { s with bus := { s.bus with
        sequence := s.bus.sequence + 1#8
        slotWords := eachSlot fun n => slotContent s (s.bus.sequence + 1#8) s.settings.slots[n] } }

/-- The FEEDBACK slot of an axis: the slot map of a RUNNING bus has one for each fitted axis (R131). -/
def feedbackSlot (s : State) (a : Axis) : Option (Fin 16) :=
  slotNumbers.find? fun n => s.settings.slots[n] == .feedback a

/-- The words the FEEDBACK slots of a frame bring for each axis. -/
def readSlots (words : SlotWords) (s : State) : PerAxis (Option FeedbackWord) :=
  PerAxis.ofFn fun a => (feedbackSlot s a).bind fun n => words[n]

/-- What a feedback slot leaves in the drive items: a word received intact replaces position and state. -/
def takeWord (w : Option FeedbackWord) (d : Drive) : Drive :=
  match w with
  | none => d
  | some w => { d with feedback := w.position.toInt, state := w.state }

/-- Step 2 on the words the FEEDBACK slots brought. -/
def receive (words : PerAxis (Option FeedbackWord)) (s : State) : State :=
  updateDrives (fun a d => takeWord (words.get a) d) s

/-! ## The three checks (R136, R137, R138) -/

/-- Whether a kept demand word has a sequence. -/
def hasSequence (seq : BitVec 8) (w : Option SentWord) : Bool := w.any fun w => w.sequence == seq

/-- The sent demand word whose sequence a feedback word echoes (R136, R138). -/
def echoedWord (d : Drive) (w : FeedbackWord) : Option SentWord :=
  if hasSequence w.echo d.sent then d.sent
  else if hasSequence w.echo d.sentBefore then d.sentBefore
  else none

/-- The sent demand word a feedback slot echoes. -/
def echoed (d : Drive) (w : Option FeedbackWord) : Option SentWord := w.bind (echoedWord d)

/-- The state with the drive items of one axis replaced. -/
def setDrive (a : Axis) (d : Drive) (s : State) : State :=
  { s with bus := { s.bus with drives := s.bus.drives.set a d } }

/-- The echo state and silent count after the echo check (R136). -/
def echoJudged (w : Option FeedbackWord) (d : Drive) : Drive :=
  match echoed d w with
  | some _ => { d with echo := .good, silent := 0 }
  | none => { d with echo := .stale, silent := min 3 (d.silent + 1) }

/-- The echo check of one axis (R136): DRIVE_SILENT when the silent count reaches 3 from 2. -/
def echoCheck (words : PerAxis (Option FeedbackWord)) (a : Axis) (s : State) : Emit :=
  let d := s.bus.drives.get a
  whenever (d.silent == 2 && (echoed d (words.get a)).isNone)
    (raise .driveSilent (RaiseInfo.ofAxes a.alone)) (setDrive a (echoJudged (words.get a) d) s)

/-- The drive-state check of one axis (R137), given the drive states before the frame start. -/
def driveStateCheck (before : PerAxis DriveState) (a : Axis) (s : State) : Emit :=
  whenever ((s.bus.drives.get a).state == .fault && before.get a != .fault)
    (raise .driveFault (RaiseInfo.ofAxes a.alone)) s

/-- Whether the echoed demand and the feedback of an axis differ by more than a limit (R138). -/
def lags (limit : Nat) (d : Drive) (w : SentWord) : Bool :=
  decide (limit < (w.position - d.feedback).natAbs)

/-- The demand word the following check compares, where the check is taken (R138): the limit is not 0, the
echo is GOOD and the echoed word carried its enable flag. -/
def followedWord (l : Limits) (w : Option FeedbackWord) (d : Drive) : Option SentWord :=
  if l.followingLimit = 0 then none
  else (echoed d w).filter SentWord.enabled

/-- The following count after the check (R138). -/
def followingCount (l : Limits) (w : Option FeedbackWord) (d : Drive) : Nat :=
  match followedWord l w d with
  | some f => if lags l.followingLimit d f then min 255 (d.following + 1) else 0
  | none => if d.echo = .stale then d.following else 0

/-- The following check of one axis (R138): FOLLOWING when the count reaches the persistence. -/
def followingCheck (words : PerAxis (Option FeedbackWord)) (a : Axis) (s : State) : Emit :=
  let d := s.bus.drives.get a
  let l := s.settings.limits.get a
  let n := followingCount l (words.get a) d
  whenever (n == l.followingPersistence && decide (d.following < n))
    (raise .following (RaiseInfo.ofAxes a.alone)) (setDrive a { d with following := n } s)

/-! ## The frame computation (R102 to R104) -/

/-- The axes the frame computation drives: fitted and ENABLED. -/
def drivenSet (s : State) : AxisSet := s.settings.fitted &&& enabledSet s

/-- The fitted axes that are RELEASED. -/
def trackedSet (s : State) : AxisSet := s.settings.fitted &&& ~~~(enabledSet s)

/-- The raw demand R of an axis (R104). -/
def rawDemand (k : PerAxis Int) (s : State) (a : Axis) : Int := (s.blend.get a).base + k.get a

/-- The candidates of the driven axes after steps 1 to 4 of the limiter. -/
def candidates (k : PerAxis Int) (s : State) : PerAxis Int :=
  PerAxis.ofFn fun a => candidate (s.settings.limits.get a) (s.demand.get a) (rawDemand k s a)

/-- Which driven axes step 4 clamps. -/
def clampedSet (k : PerAxis Int) (s : State) : AxisSet :=
  AxisSet.ofTest fun a => stepFourClamps (s.settings.limits.get a) (s.demand.get a) (rawDemand k s a)

/-- Stages 5 and 6 on the driven axes: the windup correction and the demand history (R104, R6). -/
def writeDemands (driven : AxisSet) (k d : PerAxis Int) (s : State) : State :=
  { s with
    blend := PerAxis.ofFn fun a =>
      if AxisSet.has driven a then { s.blend.get a with base := d.get a - k.get a } else s.blend.get a
    demand := PerAxis.ofFn fun a =>
      if AxisSet.has driven a then { d1 := d.get a, d2 := d1Of s a } else s.demand.get a }

/-- Stages 3 to 6: the limiter on the driven axes, step 5 in channel order, the zone check, and the demands
left written (R102, R104). -/
def limitStage (driven : AxisSet) (k : PerAxis Int) (s : State) : Emit :=
  let c := candidates k s
  let hit := clampedSet k s
  let z := zoneCheck s c
  ((emitEach (AxisSet.members driven) (fun a => judgeClamp (AxisSet.has hit a) a) s).andThen
    (emitEach z.entered raiseZoneEntry)).andThen
    fun s => quiet (writeDemands driven k z.candidates (disarmReleased s))

/-- The six stages, with released tracking for the fitted axes that are RELEASED (R102). -/
def computeDemands (driven tracked : AxisSet) (k : PerAxis Int) (s : State) : Emit :=
  (((presetStep k s).andThen (stageTwo driven k)).andThen (limitStage driven k)).andThen
    fun s => quiet (releasedTracking tracked k s)

/-- The rest test of the safe stop (R150). -/
def safeStopRest (s : State) : Emit :=
  whenever (s.faults.safeStop == .stopping && (AxisSet.members (drivenSet s)).all (atRest s))
    enterReleased s

/-- What AXIS_REPORT carries (R166). -/
def axisReport (s : State) : Notice :=
  .axisReport s.bus.frameNumber s.timecode.counter
    (PerAxis.ofFn fun a =>
      { d1 := d1Of s a, feedback := (s.bus.drives.get a).feedback, mode := (s.blend.get a).mode,
        owner := ownerOf s a })

/-- The report countdown of one link lowered by a frame computation (R166). -/
def countReport (m : Master) (s : State) : Emit :=
  let p := s.ports.get m
  match p.interval with
  | none => quiet s
  | some n =>
    if p.countdown ≤ 1 then
      { state := s.setPort m { p with countdown := n }, posts := [⟨m, axisReport s⟩] }
    else quiet (s.setPort m { p with countdown := p.countdown - 1 })

/-- The frame computation (R102) with the tests that follow stage 6, then the report countdowns. -/
def frameComputation (s : State) : Emit :=
  let k := PerAxis.ofFn (couplingOffset s)
  ((((computeDemands (drivenSet s) (trackedSet s) k s).andThen restTest).andThen
    fun s => quiet (armZones s)).andThen safeStopRest).andThen (emitEach Master.all countReport)

/-! ## The frame (R135) -/

/-- Steps 3 to 5: the checks, each on every fitted axis in channel order (log entry 16). -/
def feedbackChecks (before : PerAxis DriveState) (words : PerAxis (Option FeedbackWord)) (s : State) :
    Emit :=
  ((emitEach (fittedAxes s) (echoCheck words) s).andThen fun s =>
    emitEach (fittedAxes s) (driveStateCheck before) s).andThen fun s =>
    emitEach (fittedAxes s) (followingCheck words) s

/-- Step 6: the frame number rises by 1. -/
def countFrame (s : State) : State :=
  { s with bus := { s.bus with frameNumber := s.bus.frameNumber + 1#32 } }

/-- A frame on the words its FEEDBACK slots brought. -/
def frameOn (words : PerAxis (Option FeedbackWord)) (s : State) : Emit :=
  (feedbackChecks (PerAxis.ofFn fun a => (s.bus.drives.get a).state) words
    (receive words (transmit s))).andThen fun s => frameComputation (countFrame s)

/-- A frame taken whole, steps 1 to 7 of R135. -/
def frame (words : SlotWords) (s : State) : Emit := frameOn (readSlots words s) s

end Sys2Proof.Machine
end

