-- ==== Sys2Proof/Machine/DriveBus.lean ====
section
/-! DEFINITION. The drive bus interface (chapter 9): configuration, BUS START and BUS STOP, the two sources of
frame starts, the sync monitor, the drive enables, and QUERY BUS. -/

namespace Sys2Proof.Machine

/-! ## Configuration and bus state (R130 to R132) -/

/-- Every entry of sixteen, where there are sixteen. -/
def sixteenOf {α : Type} : List α → Option (Vector α 16)
  | [a, b, c, d, e, f, g, h, i, j, k, l, m, n, o, p] =>
    some #v[a, b, c, d, e, f, g, h, i, j, k, l, m, n, o, p]
  | _ => none

/-- The slot map sixteen octets give, where each gives a slot. -/
def slotMapOf (slots : List Nat) : Option (Vector Slot 16) :=
  (allSome (slots.map slotOf)).bind sixteenOf

/-- SET BUS CONFIG (R130). -/
def setBusConfig (role period : Nat) (slots : List Nat) (s : State) : Response :=
  match roleOf role, slotMapOf slots with
  | some r, some m =>
    if numberWithin 250 4000 period then
      if s.bus.state = .running then refuse s .busRunning
      else accept { s with settings := { s.settings with role := r, period := period, slots := m } } .none
    else refuse s .badArgument
  | _, _ => refuse s .badArgument

/-- How many slots hold a value. -/
def slotCount (s : State) (x : Slot) : Nat := s.settings.slots.toList.count x

/-- Whether the slot map serves an axis (R131): one DEMAND slot and one FEEDBACK slot when fitted, none when
not. -/
def slotsServe (s : State) (a : Axis) : Bool :=
  let n := if AxisSet.has s.settings.fitted a then 1 else 0
  slotCount s (.demand a) == n && slotCount s (.feedback a) == n

/-- The drive items of a fitted axis at BUS START (R131). -/
def startDrive (d1 : Int) (d : Drive) : Drive :=
  { d with
    silent := 0, following := 0, echo := .none, state := .notReady
    sent := some { position := d1, enabled := false, sequence := 0#8 }, sentBefore := none }

/-- The sync state at BUS START (R133, R134). -/
def firstSync : BusRole → SyncState
  | .frameMaster => .idle | .follower => .waiting

/-- BUS START on acceptance (R131, R134). The captured sync period becomes absent (log entry 17). -/
def startBus (s : State) : State :=
  updateDrives (fun a d => startDrive (d1Of s a) d)
    { s with
      bus := { s.bus with
        state := .running, frameNumber := 0#32, sequence := 0#8, syncCounter := 0,
        capturedSync := none, sync := firstSync s.settings.role, edgeSeen := false } }

/-- BUS START (R131). -/
def busStart (s : State) : Response :=
  if s.bus.state = .running then refuse s .busRunning
  else if Axis.all.all (slotsServe s) then accept (startBus s) .none
  else refuse s .slotMap

/-- BUS STOP on acceptance (R132, R134). -/
def stopBus (s : State) : State :=
  { s with bus := { s.bus with state := .stopped, sync := .idle, syncCounter := 0 } }

/-- BUS STOP (R132). -/
def busStop (s : State) : Response :=
  if anyFittedEnabled s then refuse s .axesEnabled
  else if s.queue.any Move.active then refuse s .moveActive
  else if s.bus.state = .running then accept (stopBus s) .none
  else accept s .none

/-! ## Frame starts (R133, R134) -/

/-- FRAME_START: a frame master's own, with a pulse on BUS SYNC, while the bus is RUNNING (R133). -/
def frameStart (words : SlotWords) (s : State) : Emit :=
  whenever (s.bus.state == .running && s.settings.role == .frameMaster)
    (fun s => frame words { s with bus := { s.bus with syncPulses := s.bus.syncPulses + 1 } }) s

/-- The sync monitor at an edge (R134): the captured period stays absent at the first after BUS START. -/
def takeEdge (s : State) : State :=
  { s with bus := { s.bus with
      capturedSync := if s.bus.edgeSeen then some s.bus.syncCounter else none
      edgeSeen := true, syncCounter := 0, sync := .present } }

/-- BUS_SYNC_EDGE: a frame start unless the sync state is IDLE (R134). -/
def busSyncEdge (words : SlotWords) (s : State) : Emit :=
  whenever (s.bus.sync != .idle) (fun s => frame words (takeEdge s)) s

/-- The sync counter at the loss threshold (R134): LOST, and BUS_SYNC_LOST is raised. -/
def busSyncLost (s : State) : Emit :=
  whenever ((s.bus.sync == .waiting || s.bus.sync == .present) &&
      decide (syncThreshold s ≤ s.bus.syncCounter))
    (fun s => raise .busSyncLost RaiseInfo.bare { s with bus := { s.bus with sync := .lost } }) s

/-! ## Drive enables (R139, R140) -/

/-- The outcome of ENABLE on one axis (R139). -/
def enableOutcome (m : Master) (s : State) (a : Axis) : AxisOutcome :=
  if ownerOf s a ≠ some m then .notOwner
  else if isEnabled s a then .enabled
  else if s.bus.latch then .latched
  else if s.bus.state = .stopped then .busStopped
  else if (s.bus.drives.get a).state ≠ .ready ∨ (s.bus.drives.get a).echo ≠ .good then .driveNotReady
  else if softOk s a (s.bus.drives.get a).feedback then .enabled
  else .outOfLimits

/-- The state with the drive enable of the axes of a set written. -/
def writeEnables (x : AxisSet) (e : DriveEnable) (s : State) : State :=
  { s with bus := { s.bus with drives := mapAt x (fun d => { d with enable := e }) s.bus.drives } }

/-- The axes an ENABLE leaves ENABLED. -/
def enabledBy (m : Master) (x : AxisSet) (s : State) : AxisSet :=
  AxisSet.ofTest fun a => AxisSet.has x a && enableOutcome m s a == .enabled

/-- ENABLE (R139). The mode stands: an axis that a mode request took out of HOLD in this frame is enabled in that
mode (log entry 27). -/
def enable (m : Master) (x : AxisSet) (s : State) : Response :=
  match axisSetCheck s x <|> failing (s.faults.safeStop != .stopping) .faultStop with
  | some c => refuse s c
  | none =>
    accept (writeEnables (enabledBy m x s) .enabled s)
      (.outcomes ((AxisSet.members x).map (enableOutcome m s)))

/-- The outcome of DISABLE on one axis (R140). -/
def disableOutcome (m : Master) (s : State) (a : Axis) : AxisOutcome :=
  if ownerOf s a = some m then .disabled else .notOwner

/-- DISABLE (R140). -/
def disable (m : Master) (x : AxisSet) (s : State) : Response :=
  match axisSetCheck s x with
  | some c => refuse s c
  | none =>
    accept (writeEnables (x &&& ownedBy s m) .released s)
      (.outcomes ((AxisSet.members x).map (disableOutcome m s)))

/-! ## Reading (R142) -/

/-- What QUERY BUS returns of one axis. -/
def driveReport (d : Drive) : DriveReport :=
  { enable := d.enable, feedback := d.feedback, state := d.state, echo := d.echo, silent := d.silent,
    following := d.following }

/-- What QUERY BUS returns (R142). -/
def busReport (s : State) : BusReport :=
  { state := s.bus.state, role := s.settings.role, period := s.settings.period,
    frameNumber := s.bus.frameNumber, sequence := s.bus.sequence, sync := s.bus.sync,
    capturedSync := s.bus.capturedSync, latch := s.bus.latch, slots := s.settings.slots,
    drives := PerAxis.ofFn fun a => driveReport (s.bus.drives.get a) }

/-! ## The commands -/

/-- SET_BUS_CONFIG. -/
def execSetBusConfig (h : Header) (role period : Nat) (slots : List Nat) (s : State) :
    Host.Outcome State Fault Refusal :=
  request h (.setBusConfig h.unstamped role period slots) (privileged h (setBusConfig role period slots)) s

/-- BUS_START. -/
def execBusStart (h : Header) (s : State) : Host.Outcome State Fault Refusal :=
  request h (.busStart h.unstamped) (privileged h busStart) s

/-- BUS_STOP. -/
def execBusStop (h : Header) (s : State) : Host.Outcome State Fault Refusal :=
  request h (.busStop h.unstamped) (privileged h busStop) s

/-- FRAME_START. -/
def execFrameStart (dt : Nat) (words : SlotWords) (s : State) :
    Host.Outcome State Fault Refusal :=
  event dt (frameStart words) s

/-- BUS_SYNC_EDGE. -/
def execBusSyncEdge (dt : Nat) (words : SlotWords) (s : State) :
    Host.Outcome State Fault Refusal :=
  event dt (busSyncEdge words) s

/-- BUS_SYNC_LOST. -/
def execBusSyncLost (dt : Nat) (s : State) : Host.Outcome State Fault Refusal := event dt busSyncLost s

/-- ENABLE. -/
def execEnable (h : Header) (x : AxisSet) (s : State) : Host.Outcome State Fault Refusal :=
  request h (.enable h.unstamped x) (enable h.link x) s

/-- DISABLE. -/
def execDisable (h : Header) (x : AxisSet) (s : State) : Host.Outcome State Fault Refusal :=
  request h (.disable h.unstamped x) (disable h.link x) s

/-- QUERY_BUS. -/
def execQueryBus (h : Header) (s : State) : Host.Outcome State Fault Refusal :=
  request h (.queryBus h.unstamped) (fun s => accept s (.bus (busReport s))) s

end Sys2Proof.Machine
end

