-- ==== Sys2Proof/Machine/Startup.lean ====
section
/-! DEFINITION. Start-up and configuration memory (chapter 12): the four resets, the power-up hold, the
configuration load with READY, SAVE STORE and RESTART. -/

namespace Sys2Proof.Machine

/-! ## Resets (R169) -/

/-- Whether a cause clears the preset store (R50). -/
def clearsStore : ResetCause → Bool
  | .powerOn | .lowSupply => true
  | .resetPin | .restart => false

/-- The cause a reset records: an earlier POWER_ON or LOW_SUPPLY whose start-up has not reached READY
stays (R169). -/
def recordedCause (s : State) (c : ResetCause) : ResetCause :=
  if !(ready s) && clearsStore s.startup.cause then s.startup.cause else c

/-- Where start-up stands after a reset: in reset while the supply is low or RESET is held low (R169). -/
def firstPhase (resetLow supplyLow : Bool) : Phase := if resetLow || supplyLow then .inReset else .hold

/-- The start-up controller after a reset: the mark is cleared and a cause recorded (R169). The source and
the operating mode keep what they held until the load and the sampling write them (log entry 18). -/
def resetStartup (c : ResetCause) (s : State) : Startup :=
  { s.startup with
    phase := firstPhase s.startup.resetLow s.startup.supplyLow
    cause := recordedCause s c
    saveInterrupted := false }

/-- A reset taken (R169): every block as its own chapter leaves it. The configuration memory, the levels of
the inputs and, after RESET_PIN and RESTART, the preset store stand (R50, R141). -/
def takeReset (c : ResetCause) (s : State) : State :=
  { State.reset with
    pending := s.pending
    startup := resetStartup c s
    memory := s.memory
    store := if clearsStore c then PresetStore.cleared else s.store
    faults := { FaultUnit.reset with estopActive := s.faults.estopActive }
    freeDraws := s.freeDraws }

/-- The levels of RESET and the supply written. -/
def setLevels (resetLow supplyLow : Bool) (s : State) : State :=
  { s with startup := { s.startup with resetLow := resetLow, supplyLow := supplyLow } }

/-- POWER_ON: the supply rises from below the operating range. -/
def powerOn (s : State) : State := takeReset .powerOn (setLevels s.startup.resetLow false s)

/-- LOW_SUPPLY: the supply falls below the operating range. -/
def lowSupply (s : State) : State := takeReset .lowSupply (setLevels s.startup.resetLow true s)

/-- RESET_PIN: RESET is driven low. -/
def resetPin (s : State) : State := takeReset .resetPin (setLevels true s.startup.supplyLow s)

/-- The state with the start-up phase written. -/
def setPhase (p : Phase) (s : State) : State := { s with startup := { s.startup with phase := p } }

/-- RESET_RELEASE: RESET goes high; start-up begins unless the supply is low (R169). -/
def resetRelease (s : State) : State :=
  let s := setLevels false s.startup.supplyLow s
  if s.startup.phase = .inReset ∧ s.startup.supplyLow = false then setPhase .hold s else s

/-! ## The power-up hold (R168, R170) -/

/-- POWER_UP_HOLD_END: the MODE pin is sampled and the load begins. -/
def holdEnd (pin : OperatingMode) (s : State) : State :=
  if s.startup.phase = .hold then
    { s with startup := { s.startup with phase := .loading, mode := pin } }
  else s

/-! ## The configuration image (R171) -/

/-- Whether every axis's limit settings lie within their ranges. -/
def limitsInRange (x : Settings) : Bool := Axis.all.all fun a => limitsOk (x.limits.get a)

/-- Whether one zone lies within its ranges: 2 or 3 axes, fitted ones where it is enabled. -/
def zoneInRange (fitted : AxisSet) (z : ZoneSetting) : Bool :=
  numberWithin 2 3 (axisCount z.axes) && (!z.enabled || z.axes &&& ~~~fitted == 0#8) &&
    Axis.all.all fun a => boundsOk ((z.bounds.get a).lo, (z.bounds.get a).hi)

/-- Whether one response profile lies within its ranges (R35). -/
def profileInRange (p : Profile) : Bool :=
  decide (p.deadband ≤ 511) && decide (p.expo ≤ 256) && decide (p.gain ≤ 65535)

/-- Whether a view lies within its ranges (R48). -/
def viewInRange (v : View) : Bool :=
  decide (v.directory < 4) && numberWithin 1 16 v.length && decide (v.key < 16)

/-- Whether a master's stale limit lies within its range: OFF for SUPERVISOR alone (R33, R171). -/
def staleLimitInRange (m : Master) (l : Option Nat) : Bool :=
  match l with
  | none => m == .supervisor
  | some n => numberWithin 5 250 n

/-- Whether the items of one master lie within their ranges. -/
def masterInRange (x : Settings) (m : Master) : Bool :=
  (Axis.all.all fun a => profileInRange ((x.profiles.get m).get a)) && viewInRange (x.views.get m) &&
    staleLimitInRange m (x.staleLimits.get m)

/-- Whether every value of a settings section lies within its range (R171). -/
def settingsInRange (x : Settings) : Bool :=
  limitsInRange x && (zoneNumbers.all fun n => zoneInRange x.fitted x.zones[n]) &&
    Master.all.all (masterInRange x) && numberWithin 250 4000 x.period &&
    numberWithin 1 1000 x.escalationDelay && numberWithin 1 100 x.stopTime

/-- Whether a keyframe has a target within the position range for each axis of its record and no other, and
a duration within its range (R45). -/
def keyframeInRange (x : AxisSet) (k : Keyframe) : Bool :=
  durationOk k.duration && Axis.all.all fun a =>
    match k.targets.get a with
    | some t => AxisSet.has x a && isPosition t
    | none => !(AxisSet.has x a)

/-- Whether a record body lies within its ranges (R44): a label of no characters is an absent one. -/
def bodyInRange (b : RecordBody) : Bool :=
  b.axes != 0#8 && numberWithin 1 8 b.keyframes.length && b.keyframes.all (keyframeInRange b.axes) &&
    b.label.all labelOk

/-- Whether a preset record lies within its ranges (R44). -/
def recordInRange (r : PresetRecord) : Bool :=
  decide (r.key < 16) && r.body.all bodyInRange

/-- Whether a bank entry's target lies within its ranges (R47). -/
def targetInRange : BankTarget → Bool
  | .empty => true
  | .list n => decide (n < 32)
  | .run b c => decide (b < 256) && numberWithin 1 16 c

/-- Whether every value of a preset section lies within its range, in the canonical form of its tables. -/
def presetsInRange (p : PresetStore) : Bool :=
  tableWf PresetRecord.cleared 256 p.records && (p.records.all fun e => recordInRange e.2) &&
    tableWf CueEntry.cleared 512 p.cues && (p.cues.all fun e => decide (e.2.record < 256)) &&
    tableWf BankEntry.cleared 64 p.banks && p.banks.all fun e => targetInRange e.2.target

/-- Whether the load takes the preset section (R171). -/
def readsPresets (s : State) : Bool := clearsStore s.startup.cause

/-- Whether the load finds nothing wrong with an image (R171). The preset section is judged where it is read
(log entry 19). -/
def imageGood (s : State) (i : ConfigImage) : Bool :=
  i.formatRight && i.lengthRight && i.checkMatches && i.valuesRead && !i.marker &&
    settingsInRange i.settings && (!(readsPresets s) || presetsInRange i.presets)

/-! ## The configuration load (R154, R170, R171) -/

/-- The load's findings in the reset cause record. -/
def recordLoad (src : ConfigSource) (mark : Bool) (s : State) : State :=
  { s with startup := { s.startup with source := src, saveInterrupted := mark } }

/-- A record body as the load takes it from an image: a label of no characters is the same as an absent label
(R44). -/
def loadedBody (b : RecordBody) : RecordBody := { b with label := b.label.bind labelOf }

/-- A record as the load takes it from an image. -/
def loadedRecord (r : PresetRecord) : PresetRecord := { r with body := r.body.map loadedBody }

/-- The store an image's preset section gives. -/
def loadedStore (p : PresetStore) : PresetStore :=
  { p with records := p.records.map fun e => (e.1, loadedRecord e.2) }

/-- The joystick records under the stale limits of an image: while its limit is OFF, SUPERVISOR is FRESH (R42). R33
leaves every record STALE after a reset, and R42 says so of standalone mode too, until a SET STALE LIMIT of OFF. The
load that brings OFF into force makes it FRESH in either mode (log entry 26). -/
def freshWhereOff (limits : PerMaster (Option Nat)) (j : PerMaster Joystick) : PerMaster Joystick :=
  match limits.supervisor with
  | none => j.set .supervisor { j.supervisor with stale := .fresh }
  | some _ => j

/-- The values of a good image (R171). -/
def takeImage (i : ConfigImage) (s : State) : State :=
  { s with
    settings := i.settings
    store := if readsPresets s then loadedStore i.presets else s.store
    joysticks := freshWhereOff i.settings.staleLimits s.joysticks }

/-- The built-in defaults. -/
def takeDefaults (s : State) : State := { s with settings := Settings.builtIn }

/-- The ports in use open (R167). -/
def openPorts (s : State) : State :=
  { s with ports := PerMaster.ofFn fun m =>
      if (linksInUse s).contains m then { s.ports.get m with link := .opened } else s.ports.get m }

/-- HELLO on every link in use (R167). -/
def helloPosts (s : State) : List Post :=
  (linksInUse s).map fun m =>
    ⟨m, .hello s.startup.cause s.startup.saveInterrupted s.startup.source Config.partRevision⟩

/-- READY (R170): the cache is emptied, the ports open with HELLO, and an E-STOP input already active raises
ESTOP (R151) after the actions that wait. -/
def reachReady (waiting : State → Emit) (s : State) : Emit :=
  let s := openPorts (setPhase .ready (s.setCache []))
  (Emit.andThen { state := s, posts := helloPosts s } waiting).andThen fun s =>
    whenever s.faults.estopActive (raise .estop RaiseInfo.bare) s

/-- An image found INVALID (R154, R171): CONFIG_INVALID is recorded at the load, and its actions wait for
READY. -/
def loadInvalid (i : ConfigImage) (s : State) : Emit :=
  reachReady (raiseActions .configInvalid RaiseInfo.bare (!anyFlag s))
    (raiseRecord .configInvalid RaiseInfo.bare (recordLoad .invalid i.marker (takeDefaults s)))

/-- The outcome of an image that answers (R171). -/
def loadImage (i : ConfigImage) (s : State) : Emit :=
  if imageGood s i then reachReady quiet (recordLoad .memory false (takeImage i s)) else loadInvalid i s

/-- CONFIGURATION_LOAD, once the power-up hold has ended (R170). -/
def configurationLoad (found : MemoryAnswer) (s : State) : Emit :=
  if s.startup.phase = .loading then
    match found with
    | .silent => reachReady quiet (recordLoad .defaults false (takeDefaults s))
    | .asHeld => loadImage s.memory s
    | .holding i => loadImage i { s with memory := i }
  else quiet s

/-! ## Saving (R173, R174) -/

/-- SAVE STORE (R173): the settings are copied as they stand. -/
def saveStore (m : Master) (s : State) : Response :=
  if s.save.isSome then refuse s .saving
  else accept { s with save := some { requester := m, copied := s.settings } } .none

/-- The state with the configuration memory replaced. -/
def setMemory (i : ConfigImage) (s : State) : State := { s with memory := i }

/-- SAVE_MARKER_WRITTEN: the marker write of step 1 has completed (R174). -/
def markerWritten (s : State) : State :=
  if s.save.isSome then setMemory { s.memory with marker := true } s else s

/-- The image once step 2 of a save has written the copied settings and the preset section, the marker set. -/
def writtenImage (copied : Settings) (s : State) : ConfigImage :=
  { s.memory with marker := true, valuesRead := true, settings := copied, presets := s.store }

/-- The image a completed save leaves (R173). -/
def savedImage (copied : Settings) (s : State) : ConfigImage :=
  { formatRight := true, lengthRight := true, checkMatches := true, marker := false, valuesRead := true,
    settings := copied, presets := s.store }

/-- The image a save that failed in step 4 leaves: the marker set, or the check wrong, a free value (log entry
9). -/
def unreadImage (leavesMarker : Bool) (copied : Settings) (s : State) : ConfigImage :=
  if leavesMarker then { savedImage copied s with marker := true }
  else { savedImage copied s with checkMatches := false }

/-- The state a failed save leaves: the image as far as the save got (R173). A failure in step 1 leaves the image,
one in step 2 the marker set, one in step 3 the marker set and the sections written (log entry 9). -/
def failedSave (step : Nat) (copied : Settings) (s : State) : State :=
  match step with
  | 2 => setMemory { s.memory with marker := true } s
  | 3 => setMemory (writtenImage copied s) s
  | 4 => drawn (setMemory (unreadImage (Config.failedSaveLeavesMarker s.freeDraws) copied s) s)
  | _ => s

/-- The save state IDLE. -/
def endSave (s : State) : State := { s with save := none }

/-- SAVE_COMPLETION (R173): the image as the save leaves it, and the notice to its requester. -/
def saveCompletion (ending : SaveEnding) (s : State) : Emit :=
  match s.save, ending with
  | none, _ => quiet s
  | some v, .done =>
    { state := endSave (setMemory (savedImage v.copied s) s), posts := [⟨v.requester, .saveDone⟩] }
  | some v, .failed step why =>
    { state := endSave (failedSave step v.copied s), posts := [⟨v.requester, .saveFailed step why⟩] }

/-! ## Restart (R172) -/

/-- The refusal of a RESTART, if any (R172). -/
def restartRefusal (s : State) (m : Master) : Option RefusalCode :=
  failing (actsAsSupervisor s m) .notPermitted <|> failing (!(anyFittedEnabled s)) .axesEnabled <|>
    failing s.save.isNone .saving

/-- RESTART (R172): the reply is queued, and the reset that empties every transmit queue is taken. -/
def restart (h : Header) (s : State) : State :=
  match restartRefusal s h.link with
  | some c => answer h (refuse s c)
  | none => takeReset .restart (answer h (accept s .none))

/-! ## The commands -/

/-- POWER_ON. -/
def execPowerOn (dt : Nat) (s : State) : Host.Outcome State Fault Refusal :=
  event dt (fun s => quiet (powerOn s)) s

/-- LOW_SUPPLY. -/
def execLowSupply (dt : Nat) (s : State) : Host.Outcome State Fault Refusal :=
  event dt (fun s => quiet (lowSupply s)) s

/-- RESET_PIN. -/
def execResetPin (dt : Nat) (s : State) : Host.Outcome State Fault Refusal :=
  event dt (fun s => quiet (resetPin s)) s

/-- RESET_RELEASE. -/
def execResetRelease (dt : Nat) (s : State) : Host.Outcome State Fault Refusal :=
  event dt (fun s => quiet (resetRelease s)) s

/-- POWER_UP_HOLD_END. -/
def execPowerUpHoldEnd (dt : Nat) (pin : OperatingMode) (s : State) :
    Host.Outcome State Fault Refusal :=
  event dt (fun s => quiet (holdEnd pin s)) s

/-- CONFIGURATION_LOAD. -/
def execConfigurationLoad (dt : Nat) (found : MemoryAnswer) (s : State) :
    Host.Outcome State Fault Refusal :=
  event dt (configurationLoad found) s

/-- SAVE_STORE. -/
def execSaveStore (h : Header) (s : State) : Host.Outcome State Fault Refusal :=
  request h (.saveStore h.unstamped) (privileged h (saveStore h.link)) s

/-- SAVE_MARKER_WRITTEN. -/
def execSaveMarkerWritten (dt : Nat) (s : State) : Host.Outcome State Fault Refusal :=
  event dt (fun s => quiet (markerWritten s)) s

/-- SAVE_COMPLETION. -/
def execSaveCompletion (dt : Nat) (ending : SaveEnding) (s : State) :
    Host.Outcome State Fault Refusal :=
  event dt (saveCompletion ending) s

/-- RESTART. -/
def execRestart (h : Header) (s : State) : Host.Outcome State Fault Refusal :=
  handed h (.restart h.unstamped) (restart h) s

end Sys2Proof.Machine
end

