-- ==== Sys2Proof/Machine/Timecode.lean ====
section
/-! DEFINITION. The timecode unit and the genlock monitor (chapter 8). -/

namespace Sys2Proof.Machine

/-! ## BCD fields (R118, R122, R126) -/

/-- A field and its carry or borrow into the next one up. -/
structure FieldResult where
  field : Bcd
  out : Bool
  deriving DecidableEq, Repr

/-- The two digits of a value below 100. -/
def bcdOf (n : Nat) : Bcd := { tens := n / 10, ones := n % 10 }

/-- A field that receives a carry (R122): steps 1 and 2 of the advance. -/
def bumpField (modulus : Nat) (b : Bcd) : FieldResult :=
  let up : Bcd := if b.ones < 9 then { b with ones := b.ones + 1 } else { tens := b.tens + 1, ones := 0 }
  if bcdValue up < modulus then { field := up, out := false }
  else { field := { tens := 0, ones := 0 }, out := true }

/-- A field of the advance: without a carry it is left as it was (R122). -/
def advanceField (modulus : Nat) (carry : Bool) (b : Bcd) : FieldResult :=
  if carry then bumpField modulus b else { field := b, out := false }

/-- The carry of a digit sum. -/
def digitCarry (n : Nat) : Nat := if 9 < n then 1 else 0

/-- A field of OFFSET TIMECODE(PLUS) (R126). -/
def addField (modulus : Nat) (carry : Bool) (a b : Bcd) : FieldResult :=
  let ones := a.ones + b.ones + carry.toNat
  let tens := a.tens + b.tens + digitCarry ones
  let value := 10 * tens + (ones - 10 * digitCarry ones)
  if value < modulus then { field := bcdOf value, out := false }
  else { field := bcdOf (value - modulus), out := true }

/-- The borrow of a digit difference. -/
def digitBorrow (d : Int) : Int := if d < 0 then 1 else 0

/-- A field of OFFSET TIMECODE(MINUS) (R126). -/
def subtractField (modulus : Nat) (borrow : Bool) (a b : Bcd) : FieldResult :=
  let ones : Int := a.ones - b.ones - borrow.toNat
  let tens : Int := a.tens - b.tens - digitBorrow ones
  let value := 10 * tens + (ones + 10 * digitBorrow ones)
  if value < 0 then { field := bcdOf (value + modulus).toNat, out := true }
  else { field := bcdOf value.toNat, out := false }

/-- Four fields worked from ff upward, each with what the one below it carries; what hh carries out is
discarded (R122, R126). -/
def eachField (r : Rate) (first : Bool) (f : Nat → Bool → (Timecode → Bcd) → FieldResult) : Timecode :=
  let ff := f (framesPerSecond r) first Timecode.ff
  let ss := f 60 ff.out Timecode.ss
  let mm := f 60 ss.out Timecode.mm
  let hh := f 24 mm.out Timecode.hh
  { hh := hh.field, mm := mm.field, ss := ss.field, ff := ff.field }

/-- The counter one frame on (R122). -/
def advanceCounter (r : Rate) (t : Timecode) : Timecode :=
  eachField r true fun modulus carry field => advanceField modulus carry (field t)

/-- The counter with a value added (R126). -/
def addTimecode (r : Rate) (t v : Timecode) : Timecode :=
  eachField r false fun modulus carry field => addField modulus carry (field t) (field v)

/-- The counter with a value subtracted (R126). -/
def subtractTimecode (r : Rate) (t v : Timecode) : Timecode :=
  eachField r false fun modulus borrow field => subtractField modulus borrow (field t) (field v)

/-! ## The genlock monitor (R120, R121) -/

/-- The state with the timecode counter replaced. -/
def setCounter (v : Timecode) (s : State) : State := { s with timecode := { s.timecode with counter := v } }

/-- The state with the lock state and the good-period count replaced. -/
def setLock (l : LockState) (good : Nat) (s : State) : State :=
  { s with timecode := { s.timecode with lock := l, good := good } }

/-- Entry into LOST (R120, R121): GENLOCK_LOST is raised. -/
def loseGenlock (s : State) : Emit := raise .genlockLost RaiseInfo.bare (setLock .lost 0 s)

/-- The counter advances by one frame, with its cue match (R122, R123). -/
def advanceTimecode (s : State) : State :=
  cueMatch (advanceCounter s.settings.rate s.timecode.counter)
    (setCounter (advanceCounter s.settings.rate s.timecode.counter) s)

/-- A good period in LOCKING (R120). -/
def countGood (s : State) : State :=
  if s.timecode.good < 3 then setLock .locking (s.timecode.good + 1) s else setLock .locked 4 s

/-- A good period in LOCKED (R120): the counter advances while RUNNING. -/
def lockedPulse (s : State) : State :=
  match s.timecode.run with
  | .running => advanceTimecode (setLock .locked 4 s)
  | .stopped => setLock .locked 4 s

/-- The period counter captured and restarted. -/
def capturePeriod (s : State) : State :=
  { s with timecode := { s.timecode with captured := some s.timecode.period, period := 0 } }

/-- What a captured period does by the lock state found (R120). -/
def judgePeriod (good : Bool) (s : State) : Emit :=
  match s.timecode.lock, good with
  | .noReference, _ | .lost, _ | .locking, false => quiet (setLock .locking 0 s)
  | .locking, true => quiet (countGood s)
  | .locked, true => quiet (lockedPulse s)
  | .locked, false => loseGenlock s

/-- GENLOCK_PULSE (R120); before READY pulses are not taken (R170). -/
def genlockPulse (s : State) : Emit :=
  whenever (ready s)
    (fun s => judgePeriod (goodPeriod s.settings.rate s.timecode.period) (capturePeriod s)) s

/-- The period counter at the loss threshold (R121). -/
def genlockLoss (s : State) : Emit :=
  if s.timecode.period < lossThreshold s.settings.rate then quiet s
  else
    match s.timecode.lock with
    | .locked => loseGenlock s
    | .locking => quiet (setLock .locking 0 s)
    | .noReference | .lost => quiet s

/-! ## Requests (R124 to R129) -/

/-- TC RUN and TC STOP (R124). -/
def setRun (r : RunState) (s : State) : Response :=
  accept { s with timecode := { s.timecode with run := r } } .none

/-- The counter written by a request: the waiting moves its change carries past are removed CUE_MISSED
(R96, R125). -/
def writeCounter (v : Timecode) (s : State) : Emit :=
  let p := positionInDay s.settings.rate
  missCues (fun c => decide (p s.timecode.counter < p c) && decide (p c ≤ p v)) (setCounter v s)

/-- SET TIMECODE (R125). -/
def setTimecode (v : Timecode) (s : State) : Response :=
  if timecodeValid s.settings.rate v then acceptWith (writeCounter v s) .none
  else refuse s .badTimecode

/-- The result of an offset by its sign octet: 0 PLUS, 1 MINUS (R126). -/
def offsetResult (s : State) (sign : Nat) (v : Timecode) : Option Timecode :=
  match sign with
  | 0 => some (addTimecode s.settings.rate s.timecode.counter v)
  | 1 => some (subtractTimecode s.settings.rate s.timecode.counter v)
  | _ => none

/-- OFFSET TIMECODE (R126). -/
def offsetTimecode (sign : Nat) (v : Timecode) (s : State) : Response :=
  match offsetResult s sign v with
  | none => refuse s .badArgument
  | some r =>
    if timecodeValid s.settings.rate v then acceptWith (writeCounter r s) (.counter r)
    else refuse s .badTimecode

/-- A new rate on acceptance (R127). -/
def newRate (r : Rate) (s : State) : Emit :=
  let ff := bcdOf (min (bcdValue s.timecode.counter.ff) (framesPerSecond r - 1))
  missCues (fun c => decide (framesPerSecond r ≤ bcdValue c.ff))
    { s with
      settings := { s.settings with rate := r }
      timecode :=
        { s.timecode with
          counter := { s.timecode.counter with ff := ff }
          lock := .noReference
          good := 0
          period := 0
          captured := none } }

/-- SET RATE (R127). -/
def setRate (rate : Nat) (s : State) : Response :=
  match rateOf rate with
  | none => refuse s .badArgument
  | some r =>
    if s.timecode.run = .running then refuse s .tcRunning
    else if s.settings.rate = r then accept s .none
    else acceptWith (newRate r s) .none

/-- What QUERY TIMECODE returns (R129). -/
def timecodeReport (s : State) : TimecodeReport :=
  { counter := s.timecode.counter, rate := s.settings.rate, run := s.timecode.run,
    lock := s.timecode.lock, good := s.timecode.good, captured := s.timecode.captured }

/-! ## The commands -/

/-- GENLOCK_PULSE. -/
def execGenlockPulse (dt : Nat) (s : State) : Host.Outcome State Fault Refusal := event dt genlockPulse s

/-- GENLOCK_LOSS_EVENT. -/
def execGenlockLossEvent (dt : Nat) (s : State) : Host.Outcome State Fault Refusal :=
  event dt genlockLoss s

/-- TC_RUN. -/
def execTcRun (h : Header) (s : State) : Host.Outcome State Fault Refusal :=
  request h (.tcRun h.unstamped) (privileged h (setRun .running)) s

/-- TC_STOP. -/
def execTcStop (h : Header) (s : State) : Host.Outcome State Fault Refusal :=
  request h (.tcStop h.unstamped) (privileged h (setRun .stopped)) s

/-- SET_TIMECODE. -/
def execSetTimecode (h : Header) (v : Timecode) (s : State) : Host.Outcome State Fault Refusal :=
  request h (.setTimecode h.unstamped v) (privileged h (setTimecode v)) s

/-- OFFSET_TIMECODE. -/
def execOffsetTimecode (h : Header) (sign : Nat) (v : Timecode) (s : State) :
    Host.Outcome State Fault Refusal :=
  request h (.offsetTimecode h.unstamped sign v) (privileged h (offsetTimecode sign v)) s

/-- SET_RATE. -/
def execSetRate (h : Header) (rate : Nat) (s : State) : Host.Outcome State Fault Refusal :=
  request h (.setRate h.unstamped rate) (privileged h (setRate rate)) s

/-- QUERY_TIMECODE. -/
def execQueryTimecode (h : Header) (s : State) : Host.Outcome State Fault Refusal :=
  request h (.queryTimecode h.unstamped) (fun s => accept s (.timecode (timecodeReport s))) s

end Sys2Proof.Machine
end

