-- ==== Sys2Proof/Machine/Dispatch.lean ====
section
/-! DEFINITION. One arm per command, each a direct call of its meaning. -/

namespace Sys2Proof.Machine

/-- The effect of a command on everything but the queue. -/
def exec (i : Instr) (s : State) : Host.Outcome State Fault Refusal :=
  match i with
  | .claim h axes wait => Sys2Proof.Machine.execClaim h axes wait s
  | .release h axes => Sys2Proof.Machine.execRelease h axes s
  | .yield h axes on => Sys2Proof.Machine.execYield h axes on s
  | .seize h axes => Sys2Proof.Machine.execSeize h axes s
  | .withdrawWait h axes => Sys2Proof.Machine.execWithdrawWait h axes s
  | .queryAuthority h axes => Sys2Proof.Machine.execQueryAuthority h axes s
  | .setMode h axes mode => Sys2Proof.Machine.execSetMode h axes mode s
  | .takeLive h axes frames => Sys2Proof.Machine.execTakeLive h axes frames s
  | .enable h axes => Sys2Proof.Machine.execEnable h axes s
  | .disable h axes => Sys2Proof.Machine.execDisable h axes s
  | .storePreset h bank pos axes guarded label keyframes => Sys2Proof.Machine.execStorePreset h bank pos axes guarded label keyframes s
  | .capture h bank pos axes duration shape => Sys2Proof.Machine.execCapture h bank pos axes duration shape s
  | .appendKeyframe h bank pos keyframe => Sys2Proof.Machine.execAppendKeyframe h bank pos keyframe s
  | .erasePreset h bank pos => Sys2Proof.Machine.execErasePreset h bank pos s
  | .queryPreset h bank pos first => Sys2Proof.Machine.execQueryPreset h bank pos first s
  | .recallCue h bank pos filter speed cue policy => Sys2Proof.Machine.execRecall h bank pos filter speed cue policy s
  | .go h id => Sys2Proof.Machine.execGo h id s
  | .abort h id => Sys2Proof.Machine.execAbort h id s
  | .speed h id speed => Sys2Proof.Machine.execSpeed h id speed s
  | .queryQueue h => Sys2Proof.Machine.execQueryQueue h s
  | .queryLimits h axis => Sys2Proof.Machine.execQueryLimits h axis s
  | .queryZones h => Sys2Proof.Machine.execQueryZones h s
  | .queryJoystick h master => Sys2Proof.Machine.execQueryJoystick h master s
  | .queryDirectory h directory => Sys2Proof.Machine.execQueryDirectory h directory s
  | .queryCueList h list => Sys2Proof.Machine.execQueryCueList h list s
  | .queryViews h => Sys2Proof.Machine.execQueryViews h s
  | .queryCache h => Sys2Proof.Machine.execQueryCache h s
  | .queryBlend h axes => Sys2Proof.Machine.execQueryBlend h axes s
  | .queryCoupling h => Sys2Proof.Machine.execQueryCoupling h s
  | .queryTimecode h => Sys2Proof.Machine.execQueryTimecode h s
  | .queryBus h => Sys2Proof.Machine.execQueryBus h s
  | .queryFaults h => Sys2Proof.Machine.execQueryFaults h s
  | .status h => Sys2Proof.Machine.execStatus h s
  | .setReport h interval => Sys2Proof.Machine.execSetReport h interval s
  | .releaseClear h => Sys2Proof.Machine.execReleaseClear h s
  | .setProfile h master axis deadband expo gain invert => Sys2Proof.Machine.execSetProfile h master axis deadband expo gain invert s
  | .setStaleLimit h master limit => Sys2Proof.Machine.execSetStaleLimit h master limit s
  | .setView h view enabled directory length key => Sys2Proof.Machine.execSetView h view enabled directory length key s
  | .purge h scope => Sys2Proof.Machine.execPurge h scope s
  | .setFitted h axes => Sys2Proof.Machine.execSetFitted h axes s
  | .setLimits h axis softMin softMax vmax amax trimRange followingLimit followingPersistence => Sys2Proof.Machine.execSetLimits h axis softMin softMax vmax amax trimRange followingLimit followingPersistence s
  | .setZone h zone enabled axes bounds => Sys2Proof.Machine.execSetZone h zone enabled axes bounds s
  | .setBankEntry h directory bank kind locked fields => Sys2Proof.Machine.execSetBankEntry h directory bank kind locked fields s
  | .setCueEntry h list pos valid locked record => Sys2Proof.Machine.execSetCueEntry h list pos valid locked record s
  | .setCoupling h entry enabled source target gain => Sys2Proof.Machine.execSetCoupling h entry enabled source target gain s
  | .tcRun h => Sys2Proof.Machine.execTcRun h s
  | .tcStop h => Sys2Proof.Machine.execTcStop h s
  | .setTimecode h value => Sys2Proof.Machine.execSetTimecode h value s
  | .offsetTimecode h sign value => Sys2Proof.Machine.execOffsetTimecode h sign value s
  | .setRate h rate => Sys2Proof.Machine.execSetRate h rate s
  | .setBusConfig h role period slots => Sys2Proof.Machine.execSetBusConfig h role period slots s
  | .busStart h => Sys2Proof.Machine.execBusStart h s
  | .busStop h => Sys2Proof.Machine.execBusStop h s
  | .setFaultActions h source actions => Sys2Proof.Machine.execSetFaultActions h source actions s
  | .setFaultTimers h escalationDelay stopTime => Sys2Proof.Machine.execSetFaultTimers h escalationDelay stopTime s
  | .faultClear h sources => Sys2Proof.Machine.execFaultClear h sources s
  | .saveStore h => Sys2Proof.Machine.execSaveStore h s
  | .restart h => Sys2Proof.Machine.execRestart h s
  | .joy elapsed link deflections => Sys2Proof.Machine.execJoy elapsed link deflections s
  | .frameReceived elapsed link octets => Sys2Proof.Machine.execFrameReceived elapsed link octets s
  | .frameLeavesQueue elapsed link => Sys2Proof.Machine.execFrameLeavesQueue elapsed link s
  | .powerOn elapsed => Sys2Proof.Machine.execPowerOn elapsed s
  | .lowSupply elapsed => Sys2Proof.Machine.execLowSupply elapsed s
  | .resetPin elapsed => Sys2Proof.Machine.execResetPin elapsed s
  | .powerUpHoldEnd elapsed pin => Sys2Proof.Machine.execPowerUpHoldEnd elapsed pin s
  | .configurationLoad elapsed found => Sys2Proof.Machine.execConfigurationLoad elapsed found s
  | .estop elapsed => Sys2Proof.Machine.execEstop elapsed s
  | .genlockPulse elapsed => Sys2Proof.Machine.execGenlockPulse elapsed s
  | .genlockLossEvent elapsed => Sys2Proof.Machine.execGenlockLossEvent elapsed s
  | .frameStart elapsed words => Sys2Proof.Machine.execFrameStart elapsed words s
  | .busSyncEdge elapsed words => Sys2Proof.Machine.execBusSyncEdge elapsed words s
  | .busSyncLost elapsed => Sys2Proof.Machine.execBusSyncLost elapsed s
  | .waitExpiry elapsed waiter => Sys2Proof.Machine.execWaitExpiry elapsed waiter s
  | .staleEntry elapsed master => Sys2Proof.Machine.execStaleEntry elapsed master s
  | .escalationExpiry elapsed => Sys2Proof.Machine.execEscalationExpiry elapsed s
  | .stopTimerExpiry elapsed => Sys2Proof.Machine.execStopTimerExpiry elapsed s
  | .saveCompletion elapsed ending => Sys2Proof.Machine.execSaveCompletion elapsed ending s
  | .estopInactive elapsed => Sys2Proof.Machine.execEstopInactive elapsed s
  | .resetRelease elapsed => Sys2Proof.Machine.execResetRelease elapsed s
  | .saveMarkerWritten elapsed => Sys2Proof.Machine.execSaveMarkerWritten elapsed s

end Sys2Proof.Machine
end

