-- ==== Sys2Proof/Safety.lean ====
section
/-! DEFINITION. What the statements about the block are made of: which command is a request and when its port
hands it, the replies, and the laws the spec says the part keeps. -/

namespace Sys2Proof

/-- A request as it stands in a receive buffer, where no time is attached to it (log entry 2); an event
itself. -/
def Instr.unstamped : Instr → Instr
  | .claim h a b => .claim h.unstamped a b
  | .release h a => .release h.unstamped a
  | .yield h a b => .yield h.unstamped a b
  | .seize h a => .seize h.unstamped a
  | .withdrawWait h a => .withdrawWait h.unstamped a
  | .queryAuthority h a => .queryAuthority h.unstamped a
  | .setMode h a b => .setMode h.unstamped a b
  | .takeLive h a b => .takeLive h.unstamped a b
  | .enable h a => .enable h.unstamped a
  | .disable h a => .disable h.unstamped a
  | .storePreset h a b c d e f => .storePreset h.unstamped a b c d e f
  | .capture h a b c d e => .capture h.unstamped a b c d e
  | .appendKeyframe h a b c => .appendKeyframe h.unstamped a b c
  | .erasePreset h a b => .erasePreset h.unstamped a b
  | .queryPreset h a b c => .queryPreset h.unstamped a b c
  | .recallCue h a b c d e f => .recallCue h.unstamped a b c d e f
  | .go h a => .go h.unstamped a
  | .abort h a => .abort h.unstamped a
  | .speed h a b => .speed h.unstamped a b
  | .queryQueue h => .queryQueue h.unstamped
  | .queryLimits h a => .queryLimits h.unstamped a
  | .queryZones h => .queryZones h.unstamped
  | .queryJoystick h a => .queryJoystick h.unstamped a
  | .queryDirectory h a => .queryDirectory h.unstamped a
  | .queryCueList h a => .queryCueList h.unstamped a
  | .queryViews h => .queryViews h.unstamped
  | .queryCache h => .queryCache h.unstamped
  | .queryBlend h a => .queryBlend h.unstamped a
  | .queryCoupling h => .queryCoupling h.unstamped
  | .queryTimecode h => .queryTimecode h.unstamped
  | .queryBus h => .queryBus h.unstamped
  | .queryFaults h => .queryFaults h.unstamped
  | .status h => .status h.unstamped
  | .setReport h a => .setReport h.unstamped a
  | .releaseClear h => .releaseClear h.unstamped
  | .setProfile h a b c d e f => .setProfile h.unstamped a b c d e f
  | .setStaleLimit h a b => .setStaleLimit h.unstamped a b
  | .setView h a b c d e => .setView h.unstamped a b c d e
  | .purge h a => .purge h.unstamped a
  | .setFitted h a => .setFitted h.unstamped a
  | .setLimits h a b c d e f g i => .setLimits h.unstamped a b c d e f g i
  | .setZone h a b c d => .setZone h.unstamped a b c d
  | .setBankEntry h a b c d e => .setBankEntry h.unstamped a b c d e
  | .setCueEntry h a b c d e => .setCueEntry h.unstamped a b c d e
  | .setCoupling h a b c d e => .setCoupling h.unstamped a b c d e
  | .tcRun h => .tcRun h.unstamped
  | .tcStop h => .tcStop h.unstamped
  | .setTimecode h a => .setTimecode h.unstamped a
  | .offsetTimecode h a b => .offsetTimecode h.unstamped a b
  | .setRate h a => .setRate h.unstamped a
  | .setBusConfig h a b c => .setBusConfig h.unstamped a b c
  | .busStart h => .busStart h.unstamped
  | .busStop h => .busStop h.unstamped
  | .setFaultActions h a b => .setFaultActions h.unstamped a b
  | .setFaultTimers h a b => .setFaultTimers h.unstamped a b
  | .faultClear h a => .faultClear h.unstamped a
  | .saveStore h => .saveStore h.unstamped
  | .restart h => .restart h.unstamped
  | i => i

/-- The requests of kinds 41 to 59 (R161). -/
def Instr.supervisorOnly : Instr → Bool
  | .setFitted _ _ | .setLimits _ _ _ _ _ _ _ _ _ | .setZone _ _ _ _ _ | .setBankEntry _ _ _ _ _ _
  | .setCueEntry _ _ _ _ _ _ | .setCoupling _ _ _ _ _ _ | .tcRun _ | .tcStop _ | .setTimecode _ _
  | .offsetTimecode _ _ _ | .setRate _ _ | .setBusConfig _ _ _ _ | .busStart _ | .busStop _
  | .setFaultActions _ _ _ | .setFaultTimers _ _ _ | .faultClear _ _ | .saveStore _ | .restart _ => true
  | _ => false

end Sys2Proof

namespace Sys2Proof.Machine

/-! ## Requests at their port -/

/-- The header of a request; events carry none. -/
def requestHeader : Instr → Option Header
  | .claim h _ _ | .release h _ | .yield h _ _ | .seize h _ | .withdrawWait h _ | .queryAuthority h _
  | .setMode h _ _ | .takeLive h _ _ | .enable h _ | .disable h _
  | .storePreset h _ _ _ _ _ _ | .capture h _ _ _ _ _ | .appendKeyframe h _ _ _ | .erasePreset h _ _
  | .queryPreset h _ _ _ | .recallCue h _ _ _ _ _ _ | .go h _ | .abort h _ | .speed h _ _
  | .queryQueue h | .queryLimits h _ | .queryZones h | .queryJoystick h _ | .queryDirectory h _
  | .queryCueList h _ | .queryViews h | .queryCache h | .queryBlend h _ | .queryCoupling h
  | .queryTimecode h | .queryBus h | .queryFaults h | .status h | .setReport h _ | .releaseClear h
  | .setProfile h _ _ _ _ _ _ | .setStaleLimit h _ _ | .setView h _ _ _ _ _ | .purge h _
  | .setFitted h _ | .setLimits h _ _ _ _ _ _ _ _ | .setZone h _ _ _ _ | .setBankEntry h _ _ _ _ _
  | .setCueEntry h _ _ _ _ _ | .setCoupling h _ _ _ _ _ | .tcRun h | .tcStop h | .setTimecode h _
  | .offsetTimecode h _ _ | .setRate h _ | .setBusConfig h _ _ _ | .busStart h | .busStop h
  | .setFaultActions h _ _ | .setFaultTimers h _ _ | .faultClear h _ | .saveStore h | .restart h => some h
  | .joy _ _ _ | .frameReceived _ _ _ | .frameLeavesQueue _ _ | .powerOn _ | .lowSupply _ | .resetPin _
  | .powerUpHoldEnd _ _ | .configurationLoad _ _ | .estop _ | .genlockPulse _ | .genlockLossEvent _
  | .frameStart _ _ | .busSyncEdge _ _ | .busSyncLost _ | .waitExpiry _ _ | .staleEntry _ _
  | .escalationExpiry _ | .stopTimerExpiry _ | .saveCompletion _ _ | .estopInactive _
  | .resetRelease _ | .saveMarkerWritten _ => none

/-- The state in which the block that owns a request takes it, where its port hands it (R159, R160): the
port is OPEN, fewer than 8 frames wait to be sent, and the request stands at the head of the receive buffer
or arrives at an empty one (log entry 2). `i` is the request as the buffer holds it. -/
def takenIn (h : Header) (i : Instr) (s : State) : Option State :=
  let s := elapse h.elapsed s
  let p := s.ports.get h.link
  if p.link = .opened ∧ p.tx.length < 8 then
    if p.rx.head? = some i then some (s.setPort h.link { p with rx := p.rx.tail })
    else if p.rx = [] then some (s.setPort h.link { p with badRun := 0 })
    else none
  else none

/-- A request is handed by its port, which leaves a state for its block to take it in. -/
def taken (i : Instr) (s s0 : State) : Prop :=
  match requestHeader i with
  | some h => takenIn h i.unstamped s = some s0
  | none => False

/-- The state after a request accepted with some data and no notice: an OK reply with the request's tag ends
the requester's transmit queue (R162). -/
def okay (h : Header) (d : ReplyData) (s : State) : State :=
  queueReply h { refusal := none, omitted := 0, data := d } s

/-- The state after a request refused as a whole (R162). -/
def refusedWith (h : Header) (c : RefusalCode) (s : State) : State :=
  queueReply h { refusal := some c, omitted := 0, data := .none } s

/-! ## Laws of the part -/

/-- What R156 and R163 bound in a port. -/
def Port.bounded (p : Port) : Prop :=
  p.rx.length ≤ 4 ∧ p.tx.length ≤ 8 ∧ noticesHeld p.tx ≤ 4 ∧ p.badRun ≤ 8 ∧ p.overrun ≤ 65535

/-- Every link port is within its bounds (R156, R163). -/
def linkLaw (s : State) : Prop := ∀ m, (s.ports.get m).bounded

/-- The key of a cache entry (R67). -/
def CacheEntry.key (e : CacheEntry) : Nat × Nat × Nat := (e.directory, e.bank, e.pos)

/-- The cache holds at most 8 entries, no two with one key (R67). -/
def cacheLaw (s : State) : Prop := s.cache.length ≤ 8 ∧ (s.cache.map CacheEntry.key).Nodup

/-- The first-fault record is held when and only when a flag is set (R145). -/
def firstFaultLaw (s : State) : Prop := s.faults.first.isSome = anyFlag s

/-- A drive enable is ENABLED only while the E-STOP input is inactive and the release latch is clear
(R139). -/
def enableLaw (s : State) : Prop :=
  (∀ a, isEnabled s a = true → s.bus.latch = false) ∧ (s.faults.estopActive = true → s.bus.latch = true)

/-- What R15 says of one authority record. -/
def Authority.lawful (r : Authority) : Prop :=
  r.waiting.length ≤ 2 ∧ (r.waiting.map WaitEntry.waiter).Nodup ∧
    (∀ e ∈ r.waiting, r.owner ≠ some e.waiter) ∧
    (r.owner = none → r.waiting = [] ∧ r.yielding = false) ∧ (r.yielding = true → r.waiting = [])

/-- Every authority record is lawful (R15). -/
def authorityLaw (s : State) : Prop := ∀ a, (s.authority.get a).lawful

/-- The move queue holds at most 8 moves, no two with one id, and ids and the counter lie in 1 to 255 (R79,
R80). -/
def queueLaw (s : State) : Prop :=
  s.queue.length ≤ 8 ∧ (s.queue.map Move.id).Nodup ∧ (∀ m ∈ s.queue, 1 ≤ m.id ∧ m.id ≤ 255) ∧
    1 ≤ s.nextMoveId ∧ s.nextMoveId ≤ 255

/-- Every axis of every move is owned by the move's requester, and no move is without axes (R78, R79). -/
def ownershipLaw (s : State) : Prop :=
  ∀ m ∈ s.queue, m.axes ≠ 0#8 ∧ ∀ a, AxisSet.has m.axes a = true → ownerOf s a = some m.requester

/-- In RELEASED the queue is empty, the latch set and every drive released (R97, R141, R150); the stop timer
runs in STOPPING alone (R149, R150). -/
def safeStopLaw (s : State) : Prop :=
  (s.faults.safeStop = .released →
    s.queue = [] ∧ s.bus.latch = true ∧ ∀ a, isEnabled s a = false) ∧
  (s.faults.stopTimer.isSome = true ↔ s.faults.safeStop = .stopping)

/-- Every field of the counter is valid at the rate (R118). Before READY the counter is 00:00:00:00 and every
port is CLOSED (R118, R170). -/
def timecodeLaw (s : State) : Prop :=
  timecodeValid s.settings.rate s.timecode.counter = true ∧
    (s.startup.phase ≠ .ready →
      s.timecode.counter = zeroTimecode ∧ ∀ m, (s.ports.get m).link = .closed)

/-- While the bus is RUNNING its slot map serves every axis (R131), and before READY the bus is STOPPED (R130). -/
def busLaw (s : State) : Prop :=
  (s.bus.state = .running → ∀ a, slotsServe s a = true) ∧ (s.startup.phase ≠ .ready → s.bus.state = .stopped)

/-- From READY on, SUPERVISOR is FRESH while its stale limit is OFF (R42). -/
def staleLaw (s : State) : Prop :=
  s.startup.phase = .ready → s.settings.staleLimits.get .supervisor = none →
    (s.joysticks.get .supervisor).stale = .fresh

/-- The numbered tables of the store keep their canonical form, and every cue entry and every cache entry
names a record 0 to 255 (R44, R46, R47, R67). -/
def storeLaw (s : State) : Prop :=
  tableWf PresetRecord.cleared 256 s.store.records = true ∧
    tableWf CueEntry.cleared 512 s.store.cues = true ∧
    tableWf BankEntry.cleared 64 s.store.banks = true ∧
    (∀ e ∈ s.store.cues, e.2.record < 256) ∧ ∀ e ∈ s.cache, e.record < 256

/-- The two laws of R6 for one axis: D1 within the soft limits, and the velocity within vmax. -/
def demandLawful (s : State) (a : Axis) : Prop :=
  within (s.settings.limits.get a).softMin (s.settings.limits.get a).softMax (d1Of s a) = true ∧
    ((s.demand.get a).d1 - (s.demand.get a).d2).natAbs ≤ (s.settings.limits.get a).vmax

end Sys2Proof.Machine
end

