-- ==== Sys2Proof/Certificates/Slice0/Obligations.lean ====
section
/-! DEFINITION. The statements for the provers. A request's statement speaks of the state s0 in which its block
takes it (`taken`), so that what it leaves unchanged is read off the next state it gives. -/

open Sys2Proof Sys2Proof.Machine

/-! ## Numbers of the spec's tables -/

/-- The octet of a master (11.7.2). -/
def masterNumber : Master → Nat
  | .consoleA => 1 | .consoleB => 2 | .supervisor => 3

/-- The source that the bad-frame run of a master's link raises (R143). -/
def linkErrorOf : Master → FaultSource
  | .consoleA => .linkAError | .consoleB => .linkBError | .supervisor => .linkSError

/-- The source that a master's stale entry raises (R143). -/
def staleOf : Master → FaultSource
  | .consoleA => .staleA | .consoleB => .staleB | .supervisor => .staleS

/-- The frames per second of a rate (R118). -/
def perSecond : Rate → Nat
  | .fps24 => 24 | .fps25 => 25 | .fps30 => 30

/-- The good window of a captured period in counts of 0.1 µs, by rate (R119). -/
def goodWindow : Rate → Nat × Nat
  | .fps24 => (408334, 425000)
  | .fps25 => (392000, 408000)
  | .fps30 => (326667, 339999)

/-- The loss threshold of the period counter in counts of 0.1 µs, by rate (R119). -/
def lossCounts : Rate → Nat
  | .fps24 => 625000 | .fps25 => 600000 | .fps30 => 499999

/-- What a raise carries when it carries nothing. -/
def carriesNothing : RaiseInfo := { axes := none, zone := none, master := none }

/-- What a raise carries of a master. -/
def carriesMaster (m : Master) : RaiseInfo := { axes := none, zone := none, master := some m }

/-! ## The queue of commands and the clock -/

/-- A step with a command at the front of the queue is that command's effect on the rest. -/
def Obligations.StepRunsTheFrontCommand : Prop :=
  ∀ (c : Instr) (rest : List Instr) (s : State),
    step { s with pending := c :: rest } = exec c { s with pending := rest }

/-- With an empty queue one count of 0.1 µs passes; some counts change the timebase, the genlock period
counter and the sync counter and nothing else. That a step of an empty queue is one count is the model's
choice (log entry 1). -/
def Obligations.CountsMoveTheClockAndTheCounters : Prop :=
  (∀ s : State, s.pending = [] → step s = .next (elapse 1 s)) ∧
  ∀ (dt : Nat) (s : State), elapse dt s =
    { s with
      timebase :=
        if s.startup.phase = .loading ∨ s.startup.phase = .ready then
          { ms := s.timebase.ms + (s.timebase.counts + dt) / 10000
            counts := (s.timebase.counts + dt) % 10000 }
        else s.timebase
      timecode := { s.timecode with
        period :=
          if s.timecode.lock = .noReference then s.timecode.period
          else min (lossCounts s.settings.rate) (s.timecode.period + dt) }
      bus := { s.bus with
        syncCounter :=
          if s.bus.sync = .idle then s.bus.syncCounter
          else min (15 * s.settings.period) (s.bus.syncCounter + dt) } }

/-- Every command answers a next state, and leaves the queue of waiting commands as it was. -/
def Obligations.EveryCommandAnswersANextState : Prop :=
  ∀ (i : Instr) (s : State), ∃ t, exec i s = .next t ∧ t.pending = s.pending

/-! ## Requests at their port -/

/-- What a port does with a request that reaches it: a CLOSED port discards it; the request at the head of
the receive buffer waits while 8 frames wait to be sent; a request that is not handed joins the buffer, or is
dropped and counted where the buffer holds 4; every other request is handed. That a request command reaches
an empty buffer and is handed in one event is the model's choice (log entry 2). -/
def Obligations.RequestsAreHandedHeldOrDropped : Prop :=
  ∀ (i : Instr) (h : Header) (s : State), requestHeader i = some h →
    let s1 := elapse h.elapsed s
    let p := s1.ports.get h.link
    (p.link = .closed → exec i s = .next s1) ∧
    (p.link = .opened → p.rx.head? = some i.unstamped → 8 ≤ p.tx.length → exec i s = .next s1) ∧
    (p.link = .opened → p.rx.head? ≠ some i.unstamped → (p.rx ≠ [] ∨ 8 ≤ p.tx.length) →
      (p.rx.length < 4 →
        exec i s = .next (s1.setPort h.link { p with badRun := 0, rx := p.rx ++ [i.unstamped] })) ∧
      (4 ≤ p.rx.length →
        exec i s = .next (s1.setPort h.link
          { p with badRun := 0, overrun := min 65535 (p.overrun + 1) }))) ∧
    (p.link = .opened → p.rx.head? = some i.unstamped → p.tx.length < 8 →
      taken i s (s1.setPort h.link { p with rx := p.rx.tail })) ∧
    (p.link = .opened → p.rx = [] → p.tx.length < 8 →
      taken i s (s1.setPort h.link { p with badRun := 0 }))

/-- A request handed by its port receives one reply, with its tag, at the end of its link's transmit queue,
and only notices follow it there. RESTART, whose reset empties the queue, has its own statement. -/
def Obligations.EveryTakenRequestIsAnsweredOnce : Prop :=
  ∀ (i : Instr) (h : Header) (s s0 : State), requestHeader i = some h → (∀ h', i ≠ .restart h') →
    taken i s s0 →
    ∃ (t : State) (r : Reply) (l : List LinkFrame), exec i s = .next t ∧
      l.all LinkFrame.isNotice = true ∧
      (t.ports.get h.link).tx = (s0.ports.get h.link).tx ++ LinkFrame.reply h.tag r :: l

/-- The kind number of a request (R161); 0 of an event. -/
def kindNumber : Instr → Nat
  | .claim .. => 2 | .release .. => 3 | .yield .. => 4 | .seize .. => 5 | .withdrawWait .. => 6
  | .queryAuthority .. => 7 | .setMode .. => 8 | .takeLive .. => 9 | .enable .. => 10 | .disable .. => 11
  | .storePreset .. => 12 | .capture .. => 13 | .appendKeyframe .. => 14 | .erasePreset .. => 15
  | .queryPreset .. => 16 | .recallCue .. => 17 | .go .. => 18 | .abort .. => 19 | .speed .. => 20
  | .queryQueue .. => 21 | .queryLimits .. => 22 | .queryZones .. => 23 | .queryJoystick .. => 24
  | .queryDirectory .. => 25 | .queryCueList .. => 26 | .queryViews .. => 27 | .queryCache .. => 28
  | .queryBlend .. => 29 | .queryCoupling .. => 30 | .queryTimecode .. => 31 | .queryBus .. => 32
  | .queryFaults .. => 33 | .status .. => 34 | .setReport .. => 35 | .releaseClear .. => 36
  | .setProfile .. => 37 | .setStaleLimit .. => 38 | .setView .. => 39 | .purge .. => 40 | .setFitted .. => 41
  | .setLimits .. => 42 | .setZone .. => 43 | .setBankEntry .. => 44 | .setCueEntry .. => 45
  | .setCoupling .. => 46 | .tcRun .. => 47 | .tcStop .. => 48 | .setTimecode .. => 49
  | .offsetTimecode .. => 50 | .setRate .. => 51 | .setBusConfig .. => 52 | .busStart .. => 53
  | .busStop .. => 54 | .setFaultActions .. => 55 | .setFaultTimers .. => 56 | .faultClear .. => 57
  | .saveStore .. => 58 | .restart .. => 59
  | _ => 0

/-- A request of kinds 41 to 59 from a master without the supervisor's privileges is refused NOT_PERMITTED
and changes nothing else; the privileges are the supervisor's in SUPERVISED mode and Console A's in STANDALONE
mode. -/
def Obligations.SupervisorKindsNeedThePrivilege : Prop :=
  (∀ (i : Instr) (h : Header) (s s0 : State), 41 ≤ kindNumber i → requestHeader i = some h →
      taken i s s0 → actsAsSupervisor s0 h.link = false →
      exec i s = .next (refusedWith h .notPermitted s0)) ∧
  (∀ (s : State) (m : Master), actsAsSupervisor s m = true ↔
      (s.startup.mode = .supervised ∧ m = .supervisor) ∨ (s.startup.mode = .standalone ∧ m = .consoleA))

/-- The closing flag of a frame: a CLOSED port discards it and an empty frame is none; a bad frame raises the
run, held at 8, and the step from 7 to 8 raises the link's error source; a JOY goes to the shaper; a request
joins the receive buffer, or is dropped and counted where it holds 4. -/
def Obligations.FramesAreJudgedAtTheirFlag : Prop :=
  ∀ (dt : Nat) (m : Master) (l : List Octet) (s : State),
    let s1 := elapse dt s
    let p := s1.ports.get m
    let i := Instr.frameReceived dt m l
    (p.link = .closed ∨ l = [] → exec i s = .next s1) ∧
    (p.link = .opened → l ≠ [] → frameInput m l = none → p.badRun ≠ 7 →
      exec i s = .next (s1.setPort m { p with badRun := min 8 (p.badRun + 1) })) ∧
    (p.link = .opened → l ≠ [] → frameInput m l = none → p.badRun = 7 →
      exec i s = .next
        (raise (linkErrorOf m) (carriesMaster m) (s1.setPort m { p with badRun := 8 })).settle) ∧
    (∀ d, p.link = .opened → frameInput m l = some (.joy d) →
      exec i s = .next { s1 with
        ports := s1.ports.set m { p with badRun := 0 }
        joysticks := s1.joysticks.set m
          { sample := PerAxis.ofFn fun a => max (-2047) (min 2047 (d.get a))
            arrival := some s1.timebase.ms, stale := .fresh } }) ∧
    (∀ r, p.link = .opened → frameInput m l = some (.request r) →
      (p.rx.length < 4 → exec i s = .next (s1.setPort m { p with badRun := 0, rx := p.rx ++ [r] })) ∧
      (4 ≤ p.rx.length →
        exec i s = .next (s1.setPort m { p with badRun := 0, overrun := min 65535 (p.overrun + 1) })))

/-- The octets of a number, high octet first, two's complement where it is signed (11.7). -/
def numberOctets : Nat → Int → List Octet
  | 0, _ => []
  | k + 1, v => numberOctets k (v / 256) ++ [BitVec.ofInt 8 v]

/-- The four fields of a timecode: the tens digit in the high four bits, the ones digit in the low four (11.7.2). -/
def timecodeFields (t : Timecode) : List (Nat × Int) :=
  [t.hh, t.mm, t.ss, t.ff].map fun b => (1, 16 * b.tens + b.ones)

/-- Duration, profile and gate flag at the end of a keyframe (11.7.2). -/
def closingFields (duration profile gate : Nat) : List (Nat × Int) := [(2, duration), (1, profile), (1, gate)]

/-- The fields of a keyframe: its targets, then duration, profile and gate flag (11.7.2). -/
def keyframeFields (k : KeyframeArg) : List (Nat × Int) :=
  (k.targets.map fun v => (3, v)) ++ closingFields k.duration k.shape k.gate

/-- The fields of an appended keyframe in its two forms (11.7.2). -/
def appendedFields : AppendArg → List (Nat × Int)
  | .explicit ps d p g =>
    (1, 0) :: (1, ps.length) :: ((ps.flatMap fun q => [(1, (q.1 : Int)), (3, q.2)]) ++ closingFields d p g)
  | .capture d p g => (1, 1) :: closingFields d p g
  | .unreadable => []

/-- The arguments of a request of kinds 2 to 20 in the order of its rule, each with the number of octets that 11.7.2
gives it. A label's field is filled up with any octets. -/
def earlyFields (pad : List Octet) : Instr → List (Nat × Int)
  | .claim _ x w => [(1, x.toNat), (1, w)]
  | .yield _ x on => [(1, x.toNat), (1, on)]
  | .release _ x | .seize _ x | .withdrawWait _ x | .queryAuthority _ x | .enable _ x | .disable _ x =>
    [(1, x.toNat)]
  | .setMode _ x m => [(1, x.toNat), (1, m)]
  | .takeLive _ x f => [(1, x.toNat), (2, f)]
  | .storePreset _ b q x g l ks =>
    (1, b) :: (1, q) :: (1, x.toNat) :: (1, g) :: (1, l.length) ::
      ((((l ++ pad).take 12).map fun o => (1, (o.toNat : Int))) ++ ks.flatMap keyframeFields)
  | .capture _ b q x d p => [(1, b), (1, q), (1, x.toNat), (2, d), (1, p)]
  | .appendKeyframe _ b q k => (1, b) :: (1, q) :: appendedFields k
  | .erasePreset _ b q => [(1, b), (1, q)]
  | .queryPreset _ b q f => [(1, b), (1, q), (1, f)]
  | .recallCue _ b q f v c p =>
    (1, b) :: (1, q) :: (1, f.kind) :: (1, f.axes.toNat) :: (2, v) :: (1, c.kind) ::
      (timecodeFields c.timecode ++ [(1, (p : Int))])
  | .go _ id | .abort _ id => [(1, id)]
  | .speed _ id v => [(1, id), (2, v)]
  | _ => []

/-- The arguments of a request of kinds 21 to 59, in the same way. -/
def lateFields : Instr → List (Nat × Int)
  | .queryLimits _ n | .queryJoystick _ n | .queryDirectory _ n | .queryCueList _ n | .setReport _ n | .purge _ n
  | .setRate _ n => [(1, n)]
  | .queryBlend _ x | .setFitted _ x => [(1, x.toNat)]
  | .setProfile _ m a d e g i => [(1, m), (1, a), (2, d), (2, e), (2, g), (1, i)]
  | .setStaleLimit _ m l => [(1, m), (1, l)]
  | .setView _ v e d l k => [(1, v), (1, e), (1, d), (1, l), (1, k)]
  | .setLimits _ a lo hi v c r f n => [(1, a), (3, lo), (3, hi), (2, v), (2, c), (4, r), (4, f), (1, n)]
  | .setZone _ z e x bs => (1, z) :: (1, e) :: (1, x.toNat) :: bs.flatMap fun b => [(3, b.1), (3, b.2)]
  | .setBankEntry _ d b k l fs => (1, d) :: (1, b) :: (1, k) :: (1, l) :: fs.map fun f : Nat => (1, (f : Int))
  | .setCueEntry _ l q v k r => [(1, l), (1, q), (1, v), (1, k), (1, r)]
  | .setCoupling _ n e a b g => [(1, n), (1, e), (1, a), (1, b), (2, g)]
  | .setTimecode _ t => timecodeFields t
  | .offsetTimecode _ sg t => (1, sg) :: timecodeFields t
  | .setBusConfig _ r t sl => (1, r) :: (2, t) :: sl.map fun o : Nat => (1, (o : Int))
  | .setFaultActions _ src a => [(1, src), (1, a)]
  | .setFaultTimers _ e t => [(2, e), (1, t)]
  | .faultClear _ x => [(2, x.toNat)]
  | _ => []

/-- The octets of a request's arguments. -/
def argumentOctets (pad : List Octet) (i : Instr) : List Octet :=
  (earlyFields pad i ++ lateFields i).flatMap fun f => numberOctets f.1 f.2

/-- The requests that 11.7.2 spells: those whose lists agree with the counts that stand beside them. -/
def listsAgree : Instr → Prop
  | .storePreset _ _ _ x _ l ks => l.length ≤ 12 ∧ ∀ k ∈ ks, k.targets.length = axisCount x
  | .appendKeyframe _ _ _ k => k ≠ .unreadable
  | _ => True

/-- The payload lengths of kinds 1 to 59 (0 where a list argument varies the length). -/
def payloadLengths : List Nat :=
  [16] ++ [2, 1, 2, 1, 1, 1] ++ [2, 3, 1, 1] ++ [0, 6, 0, 2, 3] ++ [12, 1, 1, 3] ++
    [0, 1, 0, 1, 1, 1, 0, 0, 1, 0, 0, 0, 0, 0] ++ [1, 0, 9, 2, 5, 1] ++
    [1, 20, 0, 0, 5, 6, 0, 0, 4, 5, 1, 19, 0, 0, 2, 3, 2, 0, 0]

/-- Whether the arguments of a kind can have a payload length (R158): STORE PRESET, APPEND KEYFRAME, SET ZONE and SET
BANK ENTRY by their lists, every other kind by the table. -/
def lengthPossible (kind n : Nat) : Prop :=
  if kind = 12 then 17 ≤ n
  else if kind = 14 then n = 7 ∨ (8 ≤ n ∧ n % 4 = 0)
  else if kind = 43 then 3 ≤ n ∧ n ≤ 51 ∧ n % 6 = 3
  else if kind = 44 then 4 ≤ n ∧ n ≤ 6
  else 1 ≤ kind ∧ payloadLengths[kind - 1]? = some n

/-- The escapes removed (R157): an octet below the escape stands, 181 and 182 behind an escape give 165 and 166 again,
and an escape before any other octet, or at the closing flag, is an error (R158). -/
def escapesAreRemoved : Prop :=
  unescape [] = some [] ∧ unescape [166#8] = none ∧
  ∀ (o : Octet) (l : List Octet),
    (o ≠ 165#8 → o ≠ 166#8 → unescape (o :: l) = (unescape l).map (o :: ·)) ∧
    unescape (166#8 :: 181#8 :: l) = (unescape l).map (165#8 :: ·) ∧
    unescape (166#8 :: 182#8 :: l) = (unescape l).map (166#8 :: ·) ∧
    (o ≠ 181#8 → o ≠ 182#8 → unescape (166#8 :: o :: l) = none)

/-- The frames that are not bad (R158), and the header and kind of the request that one brings. -/
def goodFramesAreThose : Prop :=
  ∀ (m : Master) (l : List Octet),
    ((frameInput m l).isSome = true ↔ ∃ kind tag payload,
      unescape l = some (kind :: tag :: payload ++ checkOctets (kind :: tag :: payload)) ∧
      payload.length ≤ 120 ∧ lengthPossible kind.toNat payload.length) ∧
    ∀ x, frameInput m l = some x → ∃ kind tag payload,
      unescape l = some (kind :: tag :: payload ++ checkOctets (kind :: tag :: payload)) ∧
      payload.length ≤ 120 ∧
      ((kind = 1#8 ∧ payload.length = 16 ∧ ∃ d, x = .joy d) ∨
        (2 ≤ kind.toNat ∧ kind.toNat ≤ 59 ∧ ∃ i, x = .request i ∧ kindNumber i = kind.toNat ∧
          requestHeader i = some { elapsed := 0, link := m, tag := tag }))

/-- The payload of JOY (11.7.3), read and written: eight signed deflections of two octets in channel order. -/
def joyFramesCarryTheDeflections : Prop :=
  let payload := fun d : PerAxis Int =>
    [d.track, d.swing, d.lift, d.tele, d.pan, d.tilt, d.roll, d.zoom].flatMap (numberOctets 2)
  let fits := fun d : PerAxis Int => ∀ a, -32768 ≤ d.get a ∧ d.get a ≤ 32767
  (∀ (m : Master) (tag : Octet) (d : PerAxis Int), fits d →
    frameInput m (sealFrame { kind := 1#8, tag := tag, payload := payload d }) = some (.joy d)) ∧
  ∀ (m : Master) (l : List Octet) (d : PerAxis Int), frameInput m l = some (.joy d) →
    fits d ∧ ∃ tag, unescape l = some (1#8 :: tag :: payload d ++ checkOctets (1#8 :: tag :: payload d))

/-- A request's arguments in their octets, sealed in a frame, give that request again. -/
def requestFramesCarryTheArguments : Prop :=
  ∀ (m : Master) (tag : Octet) (i : Instr) (pad : List Octet),
    requestHeader i = some { elapsed := 0, link := m, tag := tag } → i.wf = true → listsAgree i →
    12 ≤ pad.length → (argumentOctets pad i).length ≤ 120 →
    frameInput m (sealFrame
      { kind := BitVec.ofNat 8 (kindNumber i), tag := tag, payload := argumentOctets pad i }) = some (.request i)

/-- Lists that disagree with the counts beside them are no bad frame: the request is taken with an argument that its
rule refuses. A label length above 12 gives a label of more than 12 characters, octets that are no whole keyframe a
keyframe without targets, a form or count octet that disagrees with the length an unreadable keyframe. -/
def disagreeingListsAreTaken : Prop :=
  ∀ (m : Master) (tag b q : Octet),
    let h : Header := { elapsed := 0, link := m, tag := tag }
    (∀ (x g n : Octet) (rest : List Octet), 12 ≤ rest.length → rest.length ≤ 115 → ∃ lb ks,
      frameInput m (sealFrame { kind := 12#8, tag := tag, payload := b :: q :: x :: g :: n :: rest }) =
        some (.request (.storePreset h b.toNat q.toNat x g.toNat lb ks)) ∧
      (12 < n.toNat → 12 < lb.length) ∧
      ((rest.length - 12) % (3 * axisCount x + 4) ≠ 0 → ∃ k ∈ ks, k.targets = [])) ∧
    ∀ rest : List Octet, rest.length ≤ 118 → lengthPossible 14 (rest.length + 2) →
      (∀ k : AppendArg, k.wf = true → k ≠ .unreadable →
        rest ≠ (appendedFields k).flatMap fun f => numberOctets f.1 f.2) →
      frameInput m (sealFrame { kind := 14#8, tag := tag, payload := b :: q :: rest }) =
        some (.request (.appendKeyframe h b.toNat q.toNat .unreadable))

/-- Frames at their check. A frame is not bad exactly when its escapes can be removed, it holds 4 to 124 octets, carries
its own check, and is of a kind 1 to 59 whose arguments can have the payload's length. A JOY brings its eight
deflections, two octets each, signed, in channel order; a request of a kind 2 to 59 brings its arguments with the link
and the tag: the octets that 11.7.2 gives the arguments, sealed in a frame, give the request again. Lists that disagree
with their counts are for the request's rule to refuse. The octets that 11.7.2 leaves open are the model's reading (log
entry 10). -/
def Obligations.GoodFramesPassEveryCheck : Prop :=
  escapesAreRemoved ∧ goodFramesAreThose ∧ joyFramesCarryTheDeflections ∧ requestFramesCarryTheArguments ∧
    disagreeingListsAreTaken

/-- One octet of the check of R157: the octet joins the high end, and eight bits are shifted through the polynomial
x¹⁶ + x¹² + x⁵ + 1. -/
def checkedOctet (c : BitVec 16) (o : Octet) : BitVec 16 :=
  Nat.repeat (fun c : BitVec 16 => if c.msb then (c <<< 1) ^^^ 0x1021#16 else c <<< 1) 8
    (c ^^^ (o.zeroExtend 16 <<< 8))

/-- A frame sealed for the line is its kind, tag and payload with the check of them from 65,535, high octet first, 165
and 166 sent as 166 and the octet raised by 16. It opens to itself, and holds no flag octet. -/
def Obligations.SealedFramesOpenToThemselves : Prop :=
  ∀ f : RawFrame,
    let body := f.kind :: f.tag :: f.payload
    let check := body.foldl checkedOctet 0xFFFF#16
    checkOctets body = [check.extractLsb' 8 8, check.extractLsb' 0 8] ∧
    sealFrame f = (body ++ checkOctets body).flatMap (fun o =>
      if o = 165#8 ∨ o = 166#8 then [166#8, o + 16#8] else [o]) ∧
    (f.payload.length ≤ 120 → openFrame (sealFrame f) = some f ∧ betweenFlags (sealFrame f) = true)

/-- A frame that has been sent leaves the head of its OPEN port's transmit queue, and its line has carried a flag,
the frame of its kind, tag and payload with its check and its escapes, and a flag; with no frame to send nothing
leaves; and nothing else changes but the model's counter of free values. Octets whose layout the spec does not
give are a free value (log entry 31): some lists. A notice finds a place on an OPEN port that holds fewer than 4
notices and fewer than 8 frames; elsewhere it is dropped and the notices-lost flag set; a CLOSED port takes
none. The notices of an event join in order, each on its recipient's port, after those of the parts of the event
before it; a notice for a master and the supervisor is one copy where they are the same, and in STANDALONE mode LINK S
is not in use. -/
def Obligations.FramesLeaveAndNoticesJoinTheQueue : Prop :=
  (∀ (dt : Nat) (m : Master) (s : State),
      let s1 := elapse dt s
      let p := s1.ports.get m
      let x := exec (.frameLeavesQueue dt m) s
      (p.link = .closed ∨ p.tx = [] → x = .next { s1 with freeDraws := s1.freeDraws + 1 }) ∧
      ∀ f rest, p.link = .opened → p.tx = f :: rest → ∃ free : Nat → List Octet, x = .next
        { s1 with
          freeDraws := s1.freeDraws + 1
          ports := s1.ports.set m { p with
            tx := rest
            line := [165#8] ++ sealFrame { kind := f.kind, tag := f.tag, payload := f.payload free } ++
              [165#8] } }) ∧
  (∀ (p : Port) (n : Notice),
      (p.link = .closed → p.take n = p) ∧
      (p.link = .opened → noticesHeld p.tx < 4 → p.tx.length < 8 →
        p.take n = { p with tx := p.tx ++ [.notice n] }) ∧
      (p.link = .opened → (4 ≤ noticesHeld p.tx ∨ 8 ≤ p.tx.length) →
        p.take n = { p with noticesLost := true })) ∧
  (∀ l : List LinkFrame, noticesHeld l = (l.filter fun f => f.kind != 128#8).length) ∧
  (∀ (l : List Post) (s : State),
      placeNotices l s = l.foldl (fun u p => u.setPort p.dest ((u.ports.get p.dest).take p.notice)) s) ∧
  (∀ (e : Emit) (f : State → Emit), e.settle = placeNotices e.posts e.state ∧
      e.andThen f = { state := (f e.state).state, posts := e.posts ++ (f e.state).posts }) ∧
  (∀ (α : Type) (x : α) (l : List α) (f : α → State → Emit) (s : State),
      emitEach [] f s = { state := s, posts := [] } ∧ emitEach (x :: l) f s = (f x s).andThen (emitEach l f)) ∧
  ∀ (s : State) (m : Master) (n : Notice),
    (s.startup.mode = .standalone →
      linksInUse s = [.consoleA, .consoleB] ∧ withSupervisor s m n = [⟨m, n⟩]) ∧
    (s.startup.mode = .supervised →
      linksInUse s = [.consoleA, .consoleB, .supervisor] ∧
      withSupervisor s m n = if m = .supervisor then [⟨m, n⟩] else [⟨m, n⟩, ⟨.supervisor, n⟩])

/-- SET REPORT: the interval is replaced and the countdown restarts, 0 for OFF; any other value is refused. STATUS:
the snapshot as it stands, and the requester's notices-lost flag cleared. That STATUS shows D1 beside what R165
lists of an axis is the model's choice (log entry 30). -/
def Obligations.PortRequestsReportAndCount : Prop :=
  (∀ (h : Header) (n : Nat) (s s0 : State), taken (.setReport h n) s s0 →
      let p := s0.ports.get h.link
      (n = 0 → exec (.setReport h n) s =
        .next (okay h .none (s0.setPort h.link { p with interval := none, countdown := 0 }))) ∧
      (1 ≤ n → n ≤ 255 → exec (.setReport h n) s =
        .next (okay h .none (s0.setPort h.link { p with interval := some n, countdown := n }))) ∧
      (255 < n → exec (.setReport h n) s = .next (refusedWith h .badArgument s0))) ∧
  (∀ (h : Header) (s s0 : State), taken (.status h) s s0 →
      exec (.status h) s = .next (okay h
        (.status
          { links := PerMaster.ofFn fun l =>
              { badRun := (s0.ports.get l).badRun, overrun := (s0.ports.get l).overrun }
            noticesLost := (s0.ports.get h.link).noticesLost
            bus := s0.bus.state
            safeStop := s0.faults.safeStop
            counter := s0.timecode.counter
            lock := s0.timecode.lock
            axes := PerAxis.ofFn fun a =>
              { owner := (s0.authority.get a).owner, mode := (s0.blend.get a).mode
                enable := (s0.bus.drives.get a).enable, d1 := (s0.demand.get a).d1 } })
        (s0.setPort h.link { s0.ports.get h.link with noticesLost := false })))

/-! ## Reading -/

/-- The readings without an argument show the state as it stands and change nothing: views, cache, coupling table,
timecode unit, drive bus; and QUERY FAULTS with the flags and their axis sets, the first-fault record, the action
table, the two timers with the milliseconds left, the safe stop, the E-STOP input and the FAULT line. -/
def wholeReadingsChangeNothing : Prop :=
  (∀ (h : Header) (s s0 : State),
      (taken (.queryViews h) s s0 →
        exec (.queryViews h) s = .next (okay h (.views s0.settings.views) s0)) ∧
      (taken (.queryCache h) s s0 → exec (.queryCache h) s = .next (okay h (.cache s0.cache) s0)) ∧
      (taken (.queryCoupling h) s s0 →
        exec (.queryCoupling h) s = .next (okay h (.couplings s0.couplings) s0)) ∧
      (taken (.queryTimecode h) s s0 →
        exec (.queryTimecode h) s = .next (okay h
          (.timecode
            { counter := s0.timecode.counter, rate := s0.settings.rate, run := s0.timecode.run
              lock := s0.timecode.lock, good := s0.timecode.good, captured := s0.timecode.captured })
          s0)) ∧
      (taken (.queryBus h) s s0 →
        exec (.queryBus h) s = .next (okay h
          (.bus
            { state := s0.bus.state, role := s0.settings.role, period := s0.settings.period
              frameNumber := s0.bus.frameNumber, sequence := s0.bus.sequence, sync := s0.bus.sync
              capturedSync := s0.bus.capturedSync, latch := s0.bus.latch, slots := s0.settings.slots
              drives := PerAxis.ofFn fun a =>
                let d := s0.bus.drives.get a
                { enable := d.enable, feedback := d.feedback, state := d.state, echo := d.echo
                  silent := d.silent, following := d.following } })
          s0))) ∧
  (∀ (h : Header) (s s0 : State), taken (.queryFaults h) s s0 →
      exec (.queryFaults h) s = .next (okay h
        (.faults
          { sources := s0.faults.sources
            first := s0.faults.first
            actions := FaultSource.all.map (actionSet s0)
            escalationLeft := s0.faults.escalation.map fun t => t - s0.timebase.ms
            escalationDelay := s0.settings.escalationDelay
            safeStop := s0.faults.safeStop
            cause := s0.faults.cause
            stopLeft := s0.faults.stopTimer.map fun t => t - s0.timebase.ms
            stopTime := s0.settings.stopTime
            estopActive := s0.faults.estopActive
            faultLine := faultLine s0 })
        s0))

/-- QUERY LIMITS, QUERY JOYSTICK, QUERY DIRECTORY and QUERY CUE LIST answer for every number in range, fitted
or not, refuse any other number BAD_ARGUMENT, and change nothing. QUERY AUTHORITY: BAD_AXIS and the empty set
first; otherwise owner, yield flag and waiting list of each named axis in channel order, with the milliseconds
left; nothing changes. -/
def readingsByArgumentChangeNothing : Prop :=
  (∀ (h : Header) (n : Nat) (s s0 : State),
      (taken (.queryLimits h n) s s0 →
        (∀ a : Axis, n = a.number → exec (.queryLimits h n) s = .next (okay h
          (.limits
            { fitted := AxisSet.has s0.settings.fitted a, limits := s0.settings.limits.get a
              demand := s0.demand.get a, clamped := s0.clamped.get a }) s0)) ∧
        (7 < n → exec (.queryLimits h n) s = .next (refusedWith h .badArgument s0))) ∧
      (taken (.queryJoystick h n) s s0 →
        (∀ m : Master, n = masterNumber m → exec (.queryJoystick h n) s = .next (okay h
          (.joystick
            { sample := (s0.joysticks.get m).sample
              elapsed := (s0.joysticks.get m).arrival.map fun t => s0.timebase.ms - t
              stale := (s0.joysticks.get m).stale, limit := s0.settings.staleLimits.get m
              profiles := s0.settings.profiles.get m }) s0)) ∧
        (n = 0 ∨ 3 < n → exec (.queryJoystick h n) s = .next (refusedWith h .badArgument s0))) ∧
      (taken (.queryDirectory h n) s s0 →
        (n < 4 → exec (.queryDirectory h n) s =
          .next (okay h (.banks ((List.range 16).map (bankAt s0 n))) s0)) ∧
        (4 ≤ n → exec (.queryDirectory h n) s = .next (refusedWith h .badArgument s0))) ∧
      (taken (.queryCueList h n) s s0 →
        (n < 32 → exec (.queryCueList h n) s =
          .next (okay h (.cueEntries ((List.range 16).map (cueAt s0 n))) s0)) ∧
        (32 ≤ n → exec (.queryCueList h n) s = .next (refusedWith h .badArgument s0)))) ∧
  (∀ (h : Header) (x : AxisSet) (s s0 : State), taken (.queryAuthority h x) s s0 →
      (x &&& ~~~s0.settings.fitted ≠ 0#8 →
        exec (.queryAuthority h x) s = .next (refusedWith h .badAxis s0)) ∧
      (x = 0#8 → exec (.queryAuthority h x) s = .next (refusedWith h .badArgument s0)) ∧
      (x &&& ~~~s0.settings.fitted = 0#8 → x ≠ 0#8 →
        exec (.queryAuthority h x) s = .next (okay h
          (.authority ((AxisSet.members x).map fun a =>
            let r := s0.authority.get a
            { owner := r.owner, yielding := r.yielding
              waiting := r.waiting.map fun e => (e.waiter, e.deadline - s0.timebase.ms) })) s0)))

/-- The readings that show the state as it stands and change nothing: views, cache, coupling table, timecode unit,
drive bus, and QUERY FAULTS with the flags and their axis sets, the first-fault record, the action table, the two
timers with the milliseconds left, the safe stop, the E-STOP input and the FAULT line; QUERY LIMITS, QUERY
JOYSTICK, QUERY DIRECTORY and QUERY CUE LIST for every number in range, fitted or not, any other refused
BAD_ARGUMENT; QUERY AUTHORITY, BAD_AXIS and the empty set first, then each named axis in channel order. That the
lists of QUERY CACHE, QUERY BUS, QUERY DIRECTORY, QUERY CUE LIST and QUERY AUTHORITY fit their replies whole is
the model's deduction (log entry 20), and that QUERY FAULTS shows ESTOP's action set without RELEASE its choice (log
entry 28). -/
def Obligations.ReadingsChangeNothing : Prop :=
  wholeReadingsChangeNothing ∧ readingsByArgumentChangeNothing

/-- QUERY QUEUE, QUERY ZONES and QUERY BLEND show whole items in order, as many as fit, with the number left
out; they change nothing but the model's counter of free values. How many items fit is a free value, and
that a zone is an item is the model's choice (log entry 8): some number n. -/
def Obligations.ItemReadingsShowWholeItems : Prop :=
  ∀ (h : Header) (s s0 : State),
    (taken (.queryQueue h) s s0 → ∃ n : Nat, exec (.queryQueue h) s =
      .next (queueReply h
        { refusal := none, omitted := s0.queue.length - n
          data := .queue (s0.queue.take n) s0.nextMoveId } { s0 with freeDraws := s0.freeDraws + 1 })) ∧
    (taken (.queryZones h) s s0 → ∃ n : Nat, exec (.queryZones h) s =
      .next (queueReply h
        { refusal := none, omitted := 8 - n
          data := .zones (((List.finRange 8).map fun z =>
            ({ zone := s0.settings.zones[z], armed := s0.armed[z] } : ZoneReport)).take n) }
        { s0 with freeDraws := s0.freeDraws + 1 })) ∧
    (∀ x : AxisSet, taken (.queryBlend h x) s s0 →
      (x &&& ~~~s0.settings.fitted ≠ 0#8 →
        exec (.queryBlend h x) s = .next (refusedWith h .badAxis s0)) ∧
      (x = 0#8 → exec (.queryBlend h x) s = .next (refusedWith h .badArgument s0)) ∧
      (x &&& ~~~s0.settings.fitted = 0#8 → x ≠ 0#8 → ∃ n : Nat, exec (.queryBlend h x) s =
        .next (queueReply h
          { refusal := none, omitted := axisCount x - n
            data := .blend (((AxisSet.members x).map fun a =>
              ({ blend := s0.blend.get a, offset := couplingOffset s0 a, demand := s0.demand.get a
                 move := (s0.queue.find? fun m => m.state != .queued && AxisSet.has m.axes a).map Move.id }
                : BlendReport)).take n) }
          { s0 with freeDraws := s0.freeDraws + 1 })))

/-! ## Moves that change or leave -/

/-- The MOVE_DONE notices of some moves that leave the queue together. -/
def doneNotices (s : State) (o : Move → MoveOutcome) (l : List Move) : List Post :=
  l.flatMap fun m => withSupervisor s m.requester (.moveDone m.id m.record (o m))

/-- A move after an event that rewrites it by a rule and takes some axes from it: those axes are gone from its axis
set, and from the paths of its segment, and the rest of it stands. -/
def moveWithout (leaves : Axis → Prop) (m m' : Move) : Prop :=
  m' = { m with axes := m'.axes, segment := m'.segment } ∧
  (∀ a, AxisSet.has m'.axes a = true ↔ AxisSet.has m.axes a = true ∧ ¬ leaves a) ∧
  (m.segment = none → m'.segment = none) ∧
  ∀ g, m.segment = some g → ∃ g', m'.segment = some g' ∧ g' = { g with paths := g'.paths } ∧
    ∀ a, (leaves a → g'.paths.get a = none) ∧ (¬ leaves a → g'.paths.get a = g.paths.get a)

/-- A queue after an event that rewrites its moves by a rule and takes some axes from them: the moves left with an
axis stand, in order, without those axes. -/
def movesWithout (leaves : Axis → Prop) (f : Move → Move) (q q' : List Move) : Prop :=
  (q'.map Move.id).Sublist (q.map Move.id) ∧
  (∀ m' ∈ q', m'.axes ≠ 0#8 ∧ ∃ m ∈ q, moveWithout leaves (f m) m') ∧
  ∀ m ∈ q, (∃ a, AxisSet.has m.axes a = true ∧ ¬ leaves a) → ∃ m' ∈ q', m'.id = m.id

/-- The moves of a queue that are not in the queue after. -/
def movesGone (q q' : List Move) : List Move := q.filter fun m => !(q'.any fun m' => m'.id == m.id)

/-- The moves of a queue with one of them rewritten. -/
def rewriteMove (id : Nat) (f : Move → Move) (q : List Move) : List Move :=
  q.map fun m => if m.id = id then f m else m

/-- Entry into RELEASED: every drive is released, the latch set, the stop timer stopped, and every move is
removed FAULT in queue order. -/
def releasedFrom (s : State) : Emit :=
  { state :=
      { s with
        queue := []
        bus := { s.bus with
          latch := true
          drives := PerAxis.ofFn fun a => { s.bus.drives.get a with enable := .released } }
        faults := { s.faults with safeStop := .released, stopTimer := none } }
    posts := doneNotices s (fun _ => .fault) s.queue }

/-! ## Channels, limiter and zones -/

/-- Whether a channel leaves the fitted set under a new set. -/
def leavesFitted (s : State) (x : AxisSet) (a : Axis) : Prop :=
  AxisSet.has s.settings.fitted a = true ∧ AxisSet.has x a = false

/-- SET FITTED, from a master with the privilege: BUS_RUNNING, then AXIS_IN_USE for a leaving channel that is
owned, waited for or held by a move; otherwise the set is replaced, and a zone with a leaving axis loses its
enabled and armed flags. The empty set is accepted by the model's choice (log entry 12). -/
def Obligations.SetFittedReplacesTheFittedSet : Prop :=
  ∀ (h : Header) (x : AxisSet) (s s0 : State), taken (.setFitted h x) s s0 →
    actsAsSupervisor s0 h.link = true →
    let inUse := ∃ a, leavesFitted s0 x a ∧
      (ownerOf s0 a ≠ none ∨ (s0.authority.get a).waiting ≠ [] ∨
        ∃ m ∈ s0.queue, AxisSet.has m.axes a = true)
    (s0.bus.state = .running → exec (.setFitted h x) s = .next (refusedWith h .busRunning s0)) ∧
    (s0.bus.state = .stopped → inUse →
      exec (.setFitted h x) s = .next (refusedWith h .axisInUse s0)) ∧
    (s0.bus.state = .stopped → ¬ inUse → ∃ (zs : Vector ZoneSetting 8) (ar : Vector Bool 8),
      exec (.setFitted h x) s = .next (okay h .none
        { s0 with settings := { s0.settings with fitted := x, zones := zs }, armed := ar }) ∧
      ∀ n : Fin 8,
        zs[n].axes = s0.settings.zones[n].axes ∧ zs[n].bounds = s0.settings.zones[n].bounds ∧
        let keeps := ∀ a, AxisSet.has s0.settings.zones[n].axes a = true → ¬ leavesFitted s0 x a
        (zs[n].enabled = true ↔ s0.settings.zones[n].enabled = true ∧ keeps) ∧
        (ar[n] = true ↔ s0.armed[n] = true ∧ keeps))

/-- The ranges of the seven limit settings. -/
def limitRanges (l : Limits) : Prop :=
  -8388608 ≤ l.softMin ∧ l.softMin < l.softMax ∧ l.softMax ≤ 8388607 ∧
    1 ≤ l.vmax ∧ l.vmax ≤ 65535 ∧ 1 ≤ l.amax ∧ l.amax ≤ 65535 ∧ l.trimRange ≤ 1048575 ∧
    l.followingLimit ≤ 1048575 ∧ 1 ≤ l.followingPersistence ∧ l.followingPersistence ≤ 255

/-- SET LIMITS on a channel, from a master with the privilege: BAD_AXIS, then BAD_ARGUMENT, then
OUT_OF_LIMITS on an ENABLED axis whose history breaks the new limits; otherwise the seven settings are
replaced, the trim offset is clamped into the new range, and the following count is 0 where the limit or the
persistence changed. A number that names no channel is refused BAD_ARGUMENT by the model's choice (log entry
11). -/
def Obligations.SetLimitsReplacesTheSettings : Prop :=
  ∀ (h : Header) (n : Nat) (l : Limits) (s s0 : State),
    let i := Instr.setLimits h n l.softMin l.softMax l.vmax l.amax l.trimRange l.followingLimit
      l.followingPersistence
    taken i s s0 → actsAsSupervisor s0 h.link = true →
    (7 < n → exec i s = .next (refusedWith h .badArgument s0)) ∧
    ∀ a : Axis, n = a.number →
    let fitted := AxisSet.has s0.settings.fitted a = true
    let d := s0.demand.get a
    let fits := l.softMin ≤ d.d1 ∧ d.d1 ≤ l.softMax ∧ (d.d1 - d.d2).natAbs ≤ l.vmax
    (¬ fitted → exec i s = .next (refusedWith h .badAxis s0)) ∧
    (fitted → ¬ limitRanges l → exec i s = .next (refusedWith h .badArgument s0)) ∧
    (fitted → limitRanges l → isEnabled s0 a = true → ¬ fits →
      exec i s = .next (refusedWith h .outOfLimits s0)) ∧
    (fitted → limitRanges l → (isEnabled s0 a = true → fits) →
      let b := s0.blend.get a
      let v := s0.bus.drives.get a
      let old := s0.settings.limits.get a
      exec i s = .next (okay h .none
        { s0 with
          settings := { s0.settings with limits := s0.settings.limits.set a l }
          blend := s0.blend.set a
            { b with trim := max (-(l.trimRange : Int)) (min l.trimRange b.trim) }
          bus := { s0.bus with
            drives := s0.bus.drives.set a
              { v with following :=
                  if old.followingLimit = l.followingLimit ∧
                      old.followingPersistence = l.followingPersistence
                  then v.following else 0 } } }))

/-- What R11 asks of the arguments of SET ZONE besides fitted axes. -/
def zoneArguments (n e : Nat) (x : AxisSet) (bs : List (Int × Int)) : Prop :=
  n < 8 ∧ e ≤ 1 ∧ 2 ≤ axisCount x ∧ axisCount x ≤ 3 ∧ bs.length = axisCount x ∧
    ∀ b ∈ bs, -8388608 ≤ b.1 ∧ b.1 ≤ b.2 ∧ b.2 ≤ 8388607

/-- SET ZONE, from a master with the privilege: BAD_AXIS, then BAD_ARGUMENT; otherwise the zone is rewritten
with the bounds of its axes in channel order, and is armed when it is enabled and some D1 lies outside. An
enabled octet above 1 is refused BAD_ARGUMENT by the model's choice (log entry 10). -/
def Obligations.SetZoneRewritesTheZone : Prop :=
  ∀ (h : Header) (n e : Nat) (x : AxisSet) (bs : List (Int × Int)) (s s0 : State),
    let i := Instr.setZone h n e x bs
    taken i s s0 → actsAsSupervisor s0 h.link = true →
    (x &&& ~~~s0.settings.fitted ≠ 0#8 → exec i s = .next (refusedWith h .badAxis s0)) ∧
    (x &&& ~~~s0.settings.fitted = 0#8 → ¬ zoneArguments n e x bs →
      exec i s = .next (refusedWith h .badArgument s0)) ∧
    (x &&& ~~~s0.settings.fitted = 0#8 → zoneArguments n e x bs →
      ∃ (hn : n < 8) (z : ZoneSetting) (armed : Bool),
        exec i s = .next (okay h .none
          { s0 with
            settings := { s0.settings with zones := s0.settings.zones.set n z }
            armed := s0.armed.set n armed }) ∧
        z.axes = x ∧ (z.enabled = true ↔ e = 1) ∧
        ((AxisSet.members x).map fun a => ((z.bounds.get a).lo, (z.bounds.get a).hi)) = bs ∧
        (armed = true ↔ e = 1 ∧ ∃ a, AxisSet.has x a = true ∧
          (d1Of s0 a < (z.bounds.get a).lo ∨ (z.bounds.get a).hi < d1Of s0 a)))

/-- The limiter's candidate is the four clamps of its table, with D1 + v of step 3 before the last of them, and while D1 lies within the soft limits the
candidate does too, with a velocity within vmax. The clamped condition follows whether step 4 changed the
candidate, and on the way from CLEAR to CLAMPED alone AXIS_LIMIT is raised with the axis, on the state with the
condition CLAMPED. -/
def Obligations.LimiterClampsInFourSteps : Prop :=
  (∀ (l : Limits) (d : Demand) (r : Int),
      let v2 := max (d.d1 - d.d2 - l.amax) (min (d.d1 - d.d2 + l.amax) (r - d.d1))
      let v3 := max (-(l.vmax : Int)) (min l.vmax v2)
      let c := candidate l d r
      unclamped l d r = d.d1 + v3 ∧
      (l.softMin ≤ l.softMax → c = max l.softMin (min l.softMax (d.d1 + v3))) ∧
      (l.softMin ≤ d.d1 → d.d1 ≤ l.softMax →
        l.softMin ≤ c ∧ c ≤ l.softMax ∧ (c - d.d1).natAbs ≤ v3.natAbs ∧ (c - d.d1).natAbs ≤ l.vmax)) ∧
  ((∀ (l : Limits) (d : Demand) (r : Int), l.softMin ≤ l.softMax →
      (stepFourClamps l d r = true ↔ unclamped l d r < l.softMin ∨ l.softMax < unclamped l d r)) ∧
    ∀ (changed : Bool) (a : Axis) (s : State),
      let e := judgeClamp changed a s
      e.state.clamped.get a = changed ∧
      (changed = true → s.clamped.get a = false →
        e = raise .axisLimit { axes := some a.alone, zone := none, master := none }
          { s with clamped := s.clamped.set a true }) ∧
      ((changed = false ∨ s.clamped.get a = true) →
        e = { state := { s with clamped := s.clamped.set a changed }, posts := [] }))

/-- The axes that an enabled drive moves: fitted and ENABLED. -/
def isDriven (s : State) (a : Axis) : Prop := AxisSet.has s.settings.fitted a = true ∧ isEnabled s a = true

/-- The zone check takes the zones in order; an enabled armed zone whose axes are all ENABLED with their candidates
inside, both bounds included, replaces each with the axis's D1 and is entered, which ZONE_ENTRY tells with the zone
and its axis set; any other zone changes nothing. An enabled zone with an axis that is not ENABLED is disarmed. The
limiter and zone stage raises AXIS_LIMIT for the axes clamped anew, then ZONE_ENTRY for the zones entered, and
leaves D = the candidate the zone check left as D1, the old D1 as D2 and B = D − K on each axis it drives. -/
def Obligations.ZoneCheckReplacesAndRaises : Prop :=
  (∀ (s : State) (c : PerAxis Int),
    zoneCheck s c = (List.finRange 8).foldl (checkZone s) { candidates := c, entered := [] }) ∧
  (∀ (s : State) (p : ZonePass) (n : Fin 8),
    let z := s.settings.zones[n]
    let replaces := z.enabled = true ∧ s.armed[n] = true ∧ ∀ a, AxisSet.has z.axes a = true →
      isEnabled s a = true ∧ (z.bounds.get a).lo ≤ p.candidates.get a ∧ p.candidates.get a ≤ (z.bounds.get a).hi
    (replaces → (checkZone s p n).entered = p.entered ++ [n] ∧
      ∀ a, (checkZone s p n).candidates.get a =
        if AxisSet.has z.axes a then (s.demand.get a).d1 else p.candidates.get a) ∧
    (¬ replaces → checkZone s p n = p) ∧
    raiseZoneEntry n s = raise .zoneEntry { axes := some z.axes, zone := some n, master := none } s ∧
    (let t := disarmReleased s
     (∃ ar, t = { s with armed := ar }) ∧
      (t.armed[n] = true ↔ s.armed[n] = true ∧
        ¬ (z.enabled = true ∧ ∃ a, AxisSet.has z.axes a = true ∧ isEnabled s a = false)))) ∧
  ∀ (x : AxisSet) (k : PerAxis Int) (s : State),
    let c := PerAxis.ofFn fun a =>
      candidate (s.settings.limits.get a) (s.demand.get a) ((s.blend.get a).base + k.get a)
    let hit := fun a =>
      stepFourClamps (s.settings.limits.get a) (s.demand.get a) ((s.blend.get a).base + k.get a)
    let z := zoneCheck s c
    let raised := (emitEach (AxisSet.members x) (fun a => judgeClamp (hit a) a) s).andThen
      (emitEach z.entered raiseZoneEntry)
    let t := (limitStage x k s).state
    (limitStage x k s).posts = raised.posts ∧
    (∃ bl d ar, t = { raised.state with blend := bl, demand := d, armed := ar }) ∧
    t.armed = (disarmReleased raised.state).armed ∧
    ∀ a, (AxisSet.has x a = true →
        t.demand.get a = { d1 := z.candidates.get a, d2 := (s.demand.get a).d1 } ∧
        t.blend.get a = { raised.state.blend.get a with base := z.candidates.get a - k.get a }) ∧
      (AxisSet.has x a = false →
        t.demand.get a = s.demand.get a ∧ t.blend.get a = raised.state.blend.get a)

/-- The blend record of an axis after stage 2 of a frame computation, by its mode, from its D1, its coupling offset,
its owner's shaped velocity and its trim range. -/
def stageTwoTable (d1 k v : Int) (range : Nat) (b b' : Blend) : Prop :=
  let trim := max (-(range : Int)) (min range (b.trim + v))
  let live := max (-8388608) (min 8388607 (b.live + v))
  let w := min 256 (b.weight + b.step)
  (b.mode = .hold → b' = { b with base := d1 - k }) ∧
  (b.mode = .live → b' = { b with base := b.base + v }) ∧
  (b.mode = .preset → b' = { b with base := b.preset }) ∧
  (b.mode = .trim → b' = { b with trim := trim, base := b.preset + trim }) ∧
  (b.mode = .handoff → w < 256 → b' = { b with
    live := live, weight := w, base := ((b.preset + b.trim) * (256 - w) + live * w).tdiv 256 }) ∧
  (b.mode = .handoff → w = 256 →
    b' = { b with mode := .live, live := live, base := live, trim := 0, weight := 0 })

/-- Stage 2 gives each axis it drives its base demand by its mode (HOLD, LIVE, PRESET, TRIM or the progression of a
handoff), and an axis whose handoff is complete leaves every move; the moves left without axes are removed
WITHDRAWN. -/
def stageTwoFollowsTheModes : Prop :=
  ∀ (x : AxisSet) (k : PerAxis Int) (s : State), (s.queue.map Move.id).Nodup →
    ∃ (bl : PerAxis Blend) (q : List Move),
      stageTwo x k s =
        { state := { s with blend := bl, queue := q }
          posts := doneNotices s (fun _ => .withdrawn) (movesGone s.queue q) } ∧
      movesWithout (fun a => AxisSet.has x a = true ∧ (s.blend.get a).mode = .handoff ∧
        256 ≤ (s.blend.get a).weight + (s.blend.get a).step) id s.queue q ∧
      ∀ a, (AxisSet.has x a = false → bl.get a = s.blend.get a) ∧
        (AxisSet.has x a = true → stageTwoTable (d1Of s a) (k.get a) (shapedVelocity s a)
          (s.settings.limits.get a).trimRange (s.blend.get a) (bl.get a))

/-- The coupling offset of an axis (R105): the sum of the terms of the enabled entries whose target it is. -/
def offsetBySum (s : State) (a : Axis) : Int :=
  ((s.couplings.toList.filter fun c => c.enabled && c.target == a).map fun c =>
    (c.gain * ((s.demand.get c.source).d1 - c.reference)).tdiv 256).sum

/-- A frame computation, on the axes that are fitted and ENABLED, those fitted and RELEASED, and the coupling offsets.
Stage 2 forms the base demand by mode. After it every fitted ENABLED axis shows as D1 what
the limiter makes of R = B + K and the zone check leaves, its old D1 as D2, and B = D − K, and keeps the two laws of
the demand history; every fitted axis that was RELEASED shows its feedback as D1 and D2 and is in HOLD with no trim,
no handoff weight and a CLEAR clamped condition; every channel that is not fitted keeps its history; and every
enabled zone with a D1 outside its bounds is armed. -/
def Obligations.FrameComputationWritesLawfulDemands : Prop :=
  stageTwoFollowsTheModes ∧
  (∀ (s : State) (a : Axis), couplingOffset s a = offsetBySum s a ∧
    (AxisSet.has (drivenSet s) a = true ↔ isDriven s a) ∧
    (AxisSet.has (trackedSet s) a = true ↔ AxisSet.has s.settings.fitted a = true ∧ isEnabled s a = false)) ∧
  (∀ (s : State) (a : Axis), isDriven s a →
    let k := PerAxis.ofFn (couplingOffset s)
    let moved := (stageTwo (drivenSet s) k (presetStep k s).state).state
    let c := PerAxis.ofFn fun b =>
      candidate (s.settings.limits.get b) (s.demand.get b) ((moved.blend.get b).base + couplingOffset s b)
    let d := (zoneCheck s c).candidates.get a
    let t := (frameComputation s).state
    t.demand.get a = { d1 := d, d2 := (s.demand.get a).d1 } ∧
    (t.blend.get a).base = d - couplingOffset s a) ∧
  (∀ (s : State) (a : Axis),
      let t := (frameComputation s).state
      (AxisSet.has s.settings.fitted a = true → isEnabled s a = false →
        (t.demand.get a).d1 = (s.bus.drives.get a).feedback ∧
        (t.demand.get a).d2 = (s.bus.drives.get a).feedback ∧
        (t.blend.get a).mode = .hold ∧ (t.blend.get a).trim = 0 ∧ (t.blend.get a).weight = 0 ∧
        (t.blend.get a).base = (s.bus.drives.get a).feedback - couplingOffset s a ∧
        t.clamped.get a = false) ∧
      (AxisSet.has s.settings.fitted a = false → t.demand.get a = s.demand.get a)) ∧
  (∀ (s : State) (a : Axis), isDriven s a → demandLawful s a → demandLawful (frameComputation s).state a) ∧
  (∀ (s : State) (n : Fin 8),
      let t := (frameComputation s).state
      s.settings.zones[n].enabled = true →
      (∃ a, AxisSet.has s.settings.zones[n].axes a = true ∧
        (d1Of t a < (s.settings.zones[n].bounds.get a).lo ∨
          (s.settings.zones[n].bounds.get a).hi < d1Of t a)) →
      t.armed[n] = true)

/-- A frame computation is its stages and what follows them, each on the state the one before left, the notices in that
order. The six stages are the preset step, stage 2, the limiter and zone stage, and released tracking, which gives each
RELEASED axis its feedback as D1 and D2, HOLD with no trim and no handoff weight, B = feedback − K and a CLEAR clamped
condition, and leaves all else. After stage 6 every STOPPING move whose axes are all at rest leaves with its stop outcome;
a zone arms where it is enabled and some D1 lies outside its bounds, and no other; a safe stop in STOPPING with every
fitted ENABLED axis at rest enters RELEASED; each link with a report interval counts down, and at 0 is sent AXIS_REPORT
(frame number, timecode counter, and D1, feedback, mode and owner of each axis), its countdown at the interval again. -/
def Obligations.RestTestsAndReportsFollowStageSix : Prop :=
  (∀ s : State, frameComputation s =
    (((computeDemands (drivenSet s) (trackedSet s) (PerAxis.ofFn (couplingOffset s)) s).andThen
      restTest).andThen fun t => (safeStopRest (armZones t)).andThen
        (emitEach [.consoleA, .consoleB, .supervisor] countReport))) ∧
  (∀ (x y : AxisSet) (k : PerAxis Int) (s : State),
    computeDemands x y k s =
      (((presetStep k s).andThen (stageTwo x k)).andThen (limitStage x k)).andThen (fun t =>
        { state := releasedTracking y k t, posts := [] }) ∧
    releasedTracking y k s =
      { s with
        demand := PerAxis.ofFn fun a =>
          if AxisSet.has y a then { d1 := (s.bus.drives.get a).feedback, d2 := (s.bus.drives.get a).feedback }
          else s.demand.get a
        blend := PerAxis.ofFn fun a =>
          if AxisSet.has y a then
            { s.blend.get a with
              mode := .hold, trim := 0, weight := 0, base := (s.bus.drives.get a).feedback - k.get a }
          else s.blend.get a
        clamped := PerAxis.ofFn fun a => if AxisSet.has y a then false else s.clamped.get a }) ∧
  (∀ s : State,
    let still := fun a => (s.demand.get a).d1 == (s.demand.get a).d2
    let ended := fun m : Move => m.state == .stopping && (AxisSet.members m.axes).all still
    restTest s =
      { state := { s with queue := s.queue.filter fun m => !(ended m) }
        posts := doneNotices s (fun m => if m.stopOutcome = some .fault then .fault else .aborted)
          (s.queue.filter ended) }) ∧
  (∀ s : State,
    let ended := s.faults.safeStop = .stopping ∧ ∀ a, isDriven s a → (s.demand.get a).d1 = (s.demand.get a).d2
    (∃ ar, armZones s = { s with armed := ar }) ∧
    (∀ n : Fin 8, (armZones s).armed[n] = true ↔ s.armed[n] = true ∨
      (s.settings.zones[n].enabled = true ∧ ∃ a, AxisSet.has s.settings.zones[n].axes a = true ∧
        ((s.demand.get a).d1 < (s.settings.zones[n].bounds.get a).lo ∨
          (s.settings.zones[n].bounds.get a).hi < (s.demand.get a).d1))) ∧
    (ended → safeStopRest s = releasedFrom s) ∧ (¬ ended → safeStopRest s = { state := s, posts := [] })) ∧
  ∀ (m : Master) (s : State),
    let p := s.ports.get m
    let counts := fun n => { s with ports := s.ports.set m { p with countdown := n } }
    let report := Notice.axisReport s.bus.frameNumber s.timecode.counter (PerAxis.ofFn fun a =>
      { d1 := (s.demand.get a).d1, feedback := (s.bus.drives.get a).feedback
        mode := (s.blend.get a).mode, owner := (s.authority.get a).owner })
    (p.interval = none → countReport m s = { state := s, posts := [] }) ∧
    ∀ n, p.interval = some n →
      (1 < p.countdown → countReport m s = { state := counts (p.countdown - 1), posts := [] }) ∧
      (p.countdown ≤ 1 → countReport m s = { state := counts n, posts := [⟨m, report⟩] })

/-! ## Authority -/

/-- A next state answers a request judged per axis with one outcome for each named axis in channel order. -/
def answersPerAxis (h : Header) (x : AxisSet) (o : Axis → AxisOutcome) (s0 t : State) : Prop :=
  ∃ l : List LinkFrame, l.all LinkFrame.isNotice = true ∧
    (t.ports.get h.link).tx = (s0.ports.get h.link).tx ++
      LinkFrame.reply h.tag
        { refusal := none, omitted := 0, data := .outcomes ((AxisSet.members x).map o) } :: l

/-- A request on some axes passes R1: all fitted, and the set not empty. -/
def axesPass (s : State) (x : AxisSet) : Prop := x &&& ~~~s.settings.fitted = 0#8 ∧ x ≠ 0#8

/-- The record under a new owner: the yield flag clear and the owner's entry gone. -/
def underOwner (m : Master) (r : Authority) : Authority :=
  { owner := some m, yielding := false, waiting := r.waiting.filter fun e => e.waiter != m }

/-- The table of CLAIM for one axis, from its record r to its record r' with outcome o, at time now. -/
def claimTable (now : Nat) (m : Master) (w : Nat) (r : Authority) (o : AxisOutcome) (r' : Authority) : Prop :=
  (r.owner = none → o = .granted ∧ r' = underOwner m r) ∧
  (r.owner = some m → o = .owned ∧ r' = r) ∧
  ∀ q, r.owner = some q → q ≠ m →
    (r.yielding = true → o = .transferred ∧ r' = underOwner m r) ∧
    (r.yielding = false →
      (∀ n e, r.waiting[n]? = some e → e.waiter = m → (∀ k < n, ∀ f, r.waiting[k]? = some f → f.waiter ≠ m) →
        o = .alreadyWaiting (some q) (n + 1) (e.deadline - now) ∧ r' = r) ∧
      ((∀ e ∈ r.waiting, e.waiter ≠ m) →
        (w = 0 → o = .held (some q) ∧ r' = r) ∧
        (0 < w → o = .waiting (some q) (r.waiting.length + 1) (w * 100) ∧
          r' = { r with waiting := r.waiting ++ [{ waiter := m, deadline := now + w * 100 }] })))

/-- CLAIM: each named axis is judged by the table of CLAIM on the record the request found, and the records of
the other axes stand. -/
def claimJudgesEachAxis : Prop :=
  ∀ (h : Header) (x : AxisSet) (w : Nat) (s s0 : State), taken (.claim h x w) s s0 → axesPass s0 x →
    w ≤ 255 → ∃ (t : State) (o : Axis → AxisOutcome), exec (.claim h x w) s = .next t ∧
      answersPerAxis h x o s0 t ∧
      ∀ a, (AxisSet.has x a = true →
          claimTable s0.timebase.ms h.link w (s0.authority.get a) (o a) (t.authority.get a)) ∧
        (AxisSet.has x a = false → t.authority.get a = s0.authority.get a)

/-- RELEASE: NOT_OWNER, RELEASED or PASSED to the head of the waiting list on each named axis. YIELD: NOT_OWNER,
YIELD_ON, PASSED to the head of the waiting list, or YIELD_OFF on each; the octet 1 is on and 0 is off by the
model's choice (log entry 10). SEIZE: SEIZED from no owner or a stale one, OWNED, or HELD on each, with the owner by
the model's choice (log entry 25). -/
def releaseYieldAndSeizeJudgeEachAxis : Prop :=
  (∀ (h : Header) (x : AxisSet) (s s0 : State), taken (.release h x) s s0 → axesPass s0 x →
      ∃ (t : State) (o : Axis → AxisOutcome), exec (.release h x) s = .next t ∧ answersPerAxis h x o s0 t ∧
        ∀ a, let r := s0.authority.get a
          let r' := t.authority.get a
          (AxisSet.has x a = true →
            (r.owner ≠ some h.link → o a = .notOwner ∧ r' = r) ∧
            (r.owner = some h.link → r.waiting = [] →
              o a = .released ∧ r' = { owner := none, yielding := false, waiting := [] }) ∧
            (∀ e l, r.owner = some h.link → r.waiting = e :: l →
              o a = .passed (some e.waiter) ∧ r' = underOwner e.waiter r)) ∧
          (AxisSet.has x a = false → r' = r)) ∧
  (∀ (h : Header) (x : AxisSet) (n : Nat) (s s0 : State), taken (.yield h x n) s s0 → axesPass s0 x →
      n ≤ 1 → ∃ (t : State) (o : Axis → AxisOutcome), exec (.yield h x n) s = .next t ∧
        answersPerAxis h x o s0 t ∧
        ∀ a, let r := s0.authority.get a
          let r' := t.authority.get a
          (AxisSet.has x a = true →
            (r.owner ≠ some h.link → o a = .notOwner ∧ r' = r) ∧
            (r.owner = some h.link → n = 1 → r.waiting = [] →
              o a = .yieldOn ∧ r' = { r with yielding := true }) ∧
            (∀ e l, r.owner = some h.link → n = 1 → r.waiting = e :: l →
              o a = .passed (some e.waiter) ∧ r' = underOwner e.waiter r) ∧
            (r.owner = some h.link → n = 0 → o a = .yieldOff ∧ r' = { r with yielding := false })) ∧
          (AxisSet.has x a = false → r' = r)) ∧
  (∀ (h : Header) (x : AxisSet) (s s0 : State), taken (.seize h x) s s0 → axesPass s0 x →
      ∃ (t : State) (o : Axis → AxisOutcome), exec (.seize h x) s = .next t ∧ answersPerAxis h x o s0 t ∧
        ∀ a, let r := s0.authority.get a
          let r' := t.authority.get a
          (AxisSet.has x a = true →
            (r.owner = none → o a = .seized ∧ r' = underOwner h.link r) ∧
            (r.owner = some h.link → o a = .owned ∧ r' = r) ∧
            (∀ q, r.owner = some q → q ≠ h.link → (s0.joysticks.get q).stale = .stale →
              o a = .seized ∧ r' = underOwner h.link r) ∧
            (∀ q, r.owner = some q → q ≠ h.link → (s0.joysticks.get q).stale = .fresh →
              o a = .held (some q) ∧ r' = r)) ∧
          (AxisSet.has x a = false → r' = r))

/-- WITHDRAW WAIT, in a state that keeps the law of ownership: the requester's entry leaves the list of each
named axis; owners and yield flags stand, and nothing but the records and the reply changes. -/
def Obligations.WithdrawWaitRemovesTheEntry : Prop :=
  ∀ (h : Header) (x : AxisSet) (s s0 : State), taken (.withdrawWait h x) s s0 → axesPass s0 x →
    ownershipLaw s0 → ∃ (au : PerAxis Authority) (o : Axis → AxisOutcome),
      exec (.withdrawWait h x) s = .next (okay h (.outcomes ((AxisSet.members x).map o))
        { s0 with authority := au }) ∧
      ∀ a, let r := s0.authority.get a
        (AxisSet.has x a = true →
          ((∃ e ∈ r.waiting, e.waiter = h.link) → o a = .waitWithdrawn ∧
            au.get a = { r with waiting := r.waiting.filter fun e => e.waiter != h.link }) ∧
          ((∀ e ∈ r.waiting, e.waiter ≠ h.link) → o a = .notWaiting ∧ au.get a = r)) ∧
        (AxisSet.has x a = false → au.get a = r)

/-- The requests that may change an owner. -/
def changesOwners : Instr → Bool
  | .claim _ _ _ | .release _ _ | .yield _ _ _ | .seize _ _ => true
  | _ => false

/-- CLAIM, RELEASE, YIELD and SEIZE, in a state that keeps the law of authority with no move without axes: an axis
with a new owner goes to HOLD without trim or handoff weight and leaves every move, a move left without axes leaves
the queue and the others stand, an axis whose owner stands keeps its blend record, and nothing but records, blend
records, moves and ports changes: drive enables and demand histories stand. -/
def Obligations.OwnershipChangesHoldAndWithdraw : Prop :=
  ∀ (i : Instr) (s s0 : State), changesOwners i = true → taken i s s0 → authorityLaw s0 →
    (∀ m ∈ s0.queue, m.axes ≠ 0#8) →
    ∃ (au : PerAxis Authority) (bl : PerAxis Blend) (q : List Move) (po : PerMaster Port),
      exec i s = .next { s0 with authority := au, blend := bl, queue := q, ports := po } ∧
      (∀ a, (au.get a).owner ≠ ownerOf s0 a →
        (bl.get a).mode = .hold ∧ (bl.get a).trim = 0 ∧ (bl.get a).weight = 0 ∧
        (bl.get a).base = (s0.blend.get a).base ∧ (au.get a).yielding = false) ∧
      (∀ a, (au.get a).owner = ownerOf s0 a → bl.get a = s0.blend.get a) ∧
      movesWithout (fun a => (au.get a).owner ≠ ownerOf s0 a) id s0.queue q

/-- The checks of the authority requests: BAD_AXIS for an axis not fitted, then BAD_ARGUMENT for the empty set
or an argument outside its range; a refused request changes nothing. -/
def authorityRequestsRefuseWhole : Prop :=
  ∀ (h : Header) (x : AxisSet) (n : Nat) (s s0 : State),
    (∀ i ∈ [Instr.claim h x n, .release h x, .yield h x n, .seize h x, .withdrawWait h x],
      taken i s s0 →
      (x &&& ~~~s0.settings.fitted ≠ 0#8 → exec i s = .next (refusedWith h .badAxis s0)) ∧
      (x = 0#8 → exec i s = .next (refusedWith h .badArgument s0))) ∧
    (axesPass s0 x → taken (.claim h x n) s s0 → 255 < n →
      exec (.claim h x n) s = .next (refusedWith h .badArgument s0)) ∧
    (axesPass s0 x → taken (.yield h x n) s s0 → 1 < n →
      exec (.yield h x n) s = .next (refusedWith h .badArgument s0))

/-- The authority requests: BAD_AXIS for an axis not fitted, then BAD_ARGUMENT for the empty set or an argument
outside its range, nothing changed; otherwise CLAIM, RELEASE, YIELD and SEIZE judge each named axis by their tables
on the record the request found, and the records of the other axes stand. The yield octet's numbers are the model's
choice (log entry 10), and so is the owner that HELD carries under SEIZE (log entry 25). -/
def Obligations.AuthorityRequestsJudgeEachAxis : Prop :=
  authorityRequestsRefuseWhole ∧ claimJudgesEachAxis ∧ releaseYieldAndSeizeJudgeEachAxis

/-- The number of the first axis of a set, 8 where there is none. -/
def firstAxisNumber (x : AxisSet) : Nat := ((AxisSet.members x).map Axis.number).headD 8

/-- Which of two notices of one event comes first on a link: GRANTED before TAKEN (log entry 6), and each kind in the
channel order of the first axis it carries. -/
def noticeBefore : Notice → Notice → Prop
  | .granted x _, .granted y _ | .taken x _, .taken y _ => firstAxisNumber x < firstAxisNumber y
  | .granted _ _, .taken _ _ => True
  | _, _ => False

/-- CLAIM, RELEASE, YIELD and SEIZE: the reply, then the notices of the ownership changes, then MOVE_DONE(WITHDRAWN)
of the moves left without axes. GRANTED tells a waiter that became owner by PASSED, and TAKEN an owner that lost an
axis by TRANSFERRED, by PASSED under YIELD or by SEIZED; each also tells the supervisor, on the links in use; one
notice for each recipient, kind and new owner carries every axis that falls under it. That GRANTED comes before
TAKEN on a link is the model's choice (log entry 6), and so is the supervisor's copy of a change that its own request
made (log entry 32). -/
def Obligations.OwnershipChangesAreTold : Prop :=
  ∀ (i : Instr) (h : Header) (x : AxisSet) (n : Nat) (s s0 : State),
    (i = .claim h x n ∧ n ≤ 255) ∨ i = .release h x ∨ (i = .yield h x n ∧ n ≤ 1) ∨ i = .seize h x →
    taken i s s0 → axesPass s0 x → authorityLaw s0 → (s0.queue.map Move.id).Nodup →
    ∃ (o : Axis → AxisOutcome) (au : PerAxis Authority) (bl : PerAxis Blend) (q : List Move) (own : List Post),
      exec i s = .next (placeNotices (own ++ doneNotices s0 (fun _ => .withdrawn) (movesGone s0.queue q))
        (okay h (.outcomes ((AxisSet.members x).map o))
          { s0 with authority := au, blend := bl, queue := q })) ∧
      let grants := fun a m => AxisSet.has x a = true ∧ o a = .passed (some m)
      let takes := fun a m => AxisSet.has x a = true ∧ (au.get a).owner = some m ∧
        (o a = .transferred ∨ (i = .yield h x n ∧ o a = .passed (some m)) ∨
          (o a = .seized ∧ ownerOf s0 a ≠ none))
      own.Nodup ∧
      (∀ p ∈ own, p.dest ∈ linksInUse s0 ∧ ∃ y m, p.notice = .granted y m ∨ p.notice = .taken y m) ∧
      (∀ d ∈ linksInUse s0, ∀ y m,
        (⟨d, .granted y m⟩ ∈ own ↔ y ≠ 0#8 ∧
          ∀ a, AxisSet.has y a = true ↔ grants a m ∧ (d = .supervisor ∨ d = m)) ∧
        (⟨d, .taken y m⟩ ∈ own ↔ y ≠ 0#8 ∧
          ∀ a, AxisSet.has y a = true ↔ takes a m ∧ (d = .supervisor ∨ ownerOf s0 a = some d))) ∧
      ∀ d, (own.filter fun p => p.dest == d).Pairwise fun p p' => noticeBefore p.notice p'.notice

/-- WAIT_EXPIRY: the entries of a master with the earliest deadline that the timebase has reached leave every
list together, and the waiter alone is told the axes and their owners; without such an entry nothing
happens. -/
def Obligations.WaitsExpireTogether : Prop :=
  ∀ (dt : Nat) (m : Master) (s : State),
    let s1 := elapse dt s
    let due := fun d => ∃ a, ∃ e ∈ (s1.authority.get a).waiting, e.waiter = m ∧ e.deadline = d ∧
      d ≤ s1.timebase.ms
    ((¬ ∃ d, due d) → exec (.waitExpiry dt m) s = .next s1) ∧
    (∀ d, due d → (∀ d', due d' → d ≤ d') → ∃ (au : PerAxis Authority) (l : List (Axis × Option Master)),
      exec (.waitExpiry dt m) s =
        .next (placeNotices [⟨m, .waitExpired l⟩] { s1 with authority := au }) ∧
      (∀ a, au.get a = { s1.authority.get a with
        waiting := (s1.authority.get a).waiting.filter fun e =>
          !(e.waiter == m && e.deadline == d) }) ∧
      ∀ a o, (a, o) ∈ l ↔ o = ownerOf s1 a ∧
        ∃ e ∈ (s1.authority.get a).waiting, e.waiter = m ∧ e.deadline = d)

/-! ## Joystick -/

/-- JOY on an OPEN port: the whole sample is replaced within its range, the arrival time is now, the master is
FRESH, and nothing else changes but the ended bad-frame run; a CLOSED port discards it. STALE_ENTRY: a FRESH
master whose elapsed time exceeds a limit other than OFF becomes STALE and raises its source; in any other case
nothing happens. -/
def Obligations.SamplesArriveAndGoStale : Prop :=
  (∀ (dt : Nat) (m : Master) (d : PerAxis Int) (s : State),
      let s1 := elapse dt s
      ((s1.ports.get m).link = .closed → exec (.joy dt m d) s = .next s1) ∧
      ((s1.ports.get m).link = .opened → exec (.joy dt m d) s = .next
        { s1 with
          ports := s1.ports.set m { s1.ports.get m with badRun := 0 }
          joysticks := s1.joysticks.set m
            { sample := PerAxis.ofFn fun a => max (-2047) (min 2047 (d.get a))
              arrival := some s1.timebase.ms, stale := .fresh } })) ∧
  (∀ (dt : Nat) (m : Master) (s : State),
      let s1 := elapse dt s
      let j := s1.joysticks.get m
      let due := j.stale = .fresh ∧ ∃ l, s1.settings.staleLimits.get m = some l ∧
        ∀ t, j.arrival = some t → l < s1.timebase.ms - t
      (due → exec (.staleEntry dt m) s = .next
        (raise (staleOf m) (carriesMaster m)
          { s1 with joysticks := s1.joysticks.set m { j with stale := .stale } }).settle) ∧
      (¬ due → exec (.staleEntry dt m) s = .next s1))

/-- The shaped velocity of a deflection through a profile: the four steps, oddness, the full gain at full
deflection, and the bound of the velocity. The shaped velocity of an axis is 0 without an owner or under a STALE
one, and otherwise the owner's deflection through the owner's profile. -/
def Obligations.ShapedVelocityIsTheOwners : Prop :=
  (∀ (p : Profile) (x : Int),
      let mag : Int := if x < 0 then -x else x
      let u := (if x < 0 then -1 else 1) * ((mag - p.deadband) * 2047).tdiv (2047 - p.deadband)
      let q := (p.expo * u ^ 3).tdiv 4190209
      let c := ((256 - p.expo) * u + q).tdiv 256
      let v := (c * p.gain).tdiv 2047
      (mag ≤ p.deadband → shape p x = 0) ∧
      (p.deadband < mag → shape p x = if p.invert then -v else v) ∧
      shape p (-x) = -shape p x ∧
      (p.deadband ≤ 511 → p.expo ≤ 256 → shape p 2047 = if p.invert then -(p.gain : Int) else (p.gain : Int)) ∧
      (p.deadband ≤ 511 → p.expo ≤ 256 → p.gain ≤ 65535 → mag ≤ 2047 → (shape p x).natAbs ≤ 65535)) ∧
  (∀ (s : State) (a : Axis),
      (ownerOf s a = none → shapedVelocity s a = 0) ∧
      (∀ m, ownerOf s a = some m → (s.joysticks.get m).stale = .stale → shapedVelocity s a = 0) ∧
      (∀ m, ownerOf s a = some m → (s.joysticks.get m).stale = .fresh →
        shapedVelocity s a =
          shape ((s.settings.profiles.get m).get a) ((s.joysticks.get m).sample.get a)))

/-- SET PROFILE on a channel: NOT_PERMITTED for a console that names another master without the privilege,
then BAD_AXIS, then BAD_ARGUMENT; otherwise the one profile is replaced and nothing else. A number that names
no channel is refused BAD_ARGUMENT by the model's choice (log entry 11). SET STALE LIMIT: its checks, and on
acceptance the new limit with the stale state judged again at once: a FRESH master past the new limit enters
STALE with its raise, and OFF makes a STALE supervisor FRESH. -/
def Obligations.JoystickSettingsAreReplaced : Prop :=
  (∀ (h : Header) (n k : Nat) (db e g inv : Nat) (s s0 : State),
      let i := Instr.setProfile h n k db e g inv
      taken i s s0 →
      let other := actsAsSupervisor s0 h.link = false ∧ ∃ m, n = masterNumber m ∧ m ≠ h.link
      (other → exec i s = .next (refusedWith h .notPermitted s0)) ∧
      (¬ other → 7 < k → exec i s = .next (refusedWith h .badArgument s0)) ∧
      ∀ a : Axis, k = a.number →
      let fitted := AxisSet.has s0.settings.fitted a = true
      let inRange := db ≤ 511 ∧ e ≤ 256 ∧ g ≤ 65535 ∧ inv ≤ 1
      (¬ other → ¬ fitted → exec i s = .next (refusedWith h .badAxis s0)) ∧
      (¬ other → fitted → ((n = 0 ∨ 3 < n) ∨ ¬ inRange) →
        exec i s = .next (refusedWith h .badArgument s0)) ∧
      (∀ m, n = masterNumber m → ¬ other → fitted → inRange →
        exec i s = .next (okay h .none
          { s0 with settings := { s0.settings with
              profiles := s0.settings.profiles.set m ((s0.settings.profiles.get m).set a
                { deadband := db, expo := e, gain := g, invert := inv == 1 }) } }))) ∧
  (∀ (h : Header) (n l : Nat) (s s0 : State),
      let i := Instr.setStaleLimit h n l
      taken i s s0 →
      let other := actsAsSupervisor s0 h.link = false ∧ ∃ m, n = masterNumber m ∧ m ≠ h.link
      (other → exec i s = .next (refusedWith h .notPermitted s0)) ∧
      (¬ other → ((n = 0 ∨ 3 < n) ∨ (l ≠ 0 ∧ (l < 5 ∨ 250 < l)) ∨ (l = 0 ∧ n ≠ 3)) →
        exec i s = .next (refusedWith h .badArgument s0)) ∧
      (∀ m, n = masterNumber m → ¬ other → ((5 ≤ l ∧ l ≤ 250) ∨ (l = 0 ∧ n = 3)) →
        let s2 : State := { s0 with settings := { s0.settings with
          staleLimits := s0.settings.staleLimits.set m (if l = 0 then none else some l) } }
        let j := s0.joysticks.get m
        let past := l ≠ 0 ∧ ∀ t, j.arrival = some t → l < s0.timebase.ms - t
        (j.stale = .fresh → past →
          let e := raise (staleOf m) (carriesMaster m)
            { s2 with joysticks := s0.joysticks.set m { j with stale := .stale } }
          exec i s = .next (placeNotices e.posts (okay h .none e.state))) ∧
        (j.stale = .fresh → ¬ past → exec i s = .next (okay h .none s2)) ∧
        (j.stale = .stale → l ≠ 0 → exec i s = .next (okay h .none s2)) ∧
        (j.stale = .stale → l = 0 → exec i s = .next (okay h .none
          { s2 with joysticks := s0.joysticks.set m { j with stale := .fresh } }))))

/-! ## Checks in order -/

/-- A request judged by checks in order, the first that fails giving its single refusal and no change to the
state s; where all pass, what follows holds. -/
def judged (h : Header) (s : State) (o : Host.Outcome State Fault Refusal) :
    List (Prop × RefusalCode) → Prop → Prop
  | [], accepted => accepted
  | (ok, c) :: rest, accepted =>
    (¬ ok → o = .next (refusedWith h c s)) ∧ (ok → judged h s o rest accepted)

/-- Every named axis is fitted. -/
def allFitted (s : State) (x : AxisSet) : Prop := x &&& ~~~s.settings.fitted = 0#8

/-- A position (R3). -/
def positionRange (v : Int) : Prop := -8388608 ≤ v ∧ v ≤ 8388607

/-- A value within the soft limits of an axis. -/
def softRange (s : State) (a : Axis) (v : Int) : Prop :=
  (s.settings.limits.get a).softMin ≤ v ∧ v ≤ (s.settings.limits.get a).softMax

/-- Two keys that refuse: both not 0, and different. -/
def keysRefuse (k j : Nat) : Prop := k ≠ 0 ∧ j ≠ 0 ∧ k ≠ j

/-- A bank and a position of a cue address. -/
def addressRange (bank pos : Nat) : Prop := bank < 16 ∧ pos < 16

/-- A keyframe's duration, profile and gate octets. -/
def keyframeOctets (duration shape gate : Nat) : Prop :=
  1 ≤ duration ∧ duration ≤ 60000 ∧ shape ≤ 2 ∧ gate ≤ 1

/-- The interpolation profile of an octet 0 to 2. -/
def shapeNumbered : Nat → Shape
  | 0 => .linear
  | 1 => .ease
  | _ => .dwell

/-! ## Resolution and the cache -/

/-- Resolution: a disabled view faults; an entry for the address answers and becomes most recent; otherwise the
store is walked, a fault changes nothing, and a result is inserted as most recent with at most 7 entries behind
it. -/
def Obligations.ResolutionHitsOrWalks : Prop :=
  ∀ (m : Master) (b p : Nat) (s : State),
    let v := s.settings.views.get m
    let isFor := fun e : CacheEntry => e.directory = v.directory ∧ e.bank = b ∧ e.pos = p
    let k := bankAt s v.directory b
    let fault := fun c => resolve m b p s = (s, .fault c)
    let found := fun n l => resolve m b p s =
      ({ s with cache := { directory := v.directory, bank := b, pos := p, record := n, locked := l } ::
          s.cache.take 7 }, .found { record := n, locked := l })
    (v.enabled = false → fault .viewOff) ∧
    (v.enabled = true → ∀ l e r, s.cache = l ++ e :: r → isFor e → (∀ f ∈ l, ¬ isFor f) →
      resolve m b p s =
        ({ s with cache := e :: (l ++ r) }, .found { record := e.record, locked := e.locked })) ∧
    (v.enabled = true → (∀ e ∈ s.cache, ¬ isFor e) →
      (v.length ≤ b → fault .rangeBank) ∧
      (b < v.length →
        (k.target = .empty → fault .bankEmpty) ∧
        (∀ n, k.target = .list n →
          ((cueAt s n p).valid = false → fault .entryEmpty) ∧
          ((cueAt s n p).valid = true → found (cueAt s n p).record (k.locked || (cueAt s n p).locked))) ∧
        (∀ base count, k.target = .run base count →
          (count ≤ p → fault .rangeEntry) ∧
          (p < count → 255 < base + p → fault .rangeRecord) ∧
          (p < count → base + p ≤ 255 → found (base + p) k.locked))))

/-- PURGE: a console without the supervisor's privileges purges its own view's directory alone; 255 is ALL;
the entries the scope covers leave, the others keep their order, and the reply counts those that left. -/
def Obligations.PurgeRemovesTheScope : Prop :=
  ∀ (h : Header) (n : Nat) (s s0 : State), taken (.purge h n) s s0 →
    let covered := fun e : CacheEntry => n == 255 || e.directory == n
    judged h s0 (exec (.purge h n) s)
      [(actsAsSupervisor s0 h.link = true ∨ n = (s0.settings.views.get h.link).directory, .notPermitted),
       (n = 255 ∨ n < 4, .badArgument)]
      (exec (.purge h n) s = .next (okay h (.purged (s0.cache.filter covered).length)
        { s0 with cache := s0.cache.filter fun e => !(covered e) }))

/-! ## The preset store -/

/-- Stage 1 of the four edit requests: the arguments each rule lists. -/
def editArguments (s : State) : Instr → Prop
  | .storePreset _ b p x g l ks =>
    addressRange b p ∧ x ≠ 0#8 ∧ allFitted s x ∧ g ≤ 1 ∧ 1 ≤ ks.length ∧ ks.length ≤ 8 ∧ l.length ≤ 12 ∧
      (∀ o ∈ l, 32 ≤ o.toNat ∧ o.toNat ≤ 126) ∧
      ∀ k ∈ ks, k.targets.length = axisCount x ∧ keyframeOctets k.duration k.shape k.gate ∧
        ∀ q ∈ (AxisSet.members x).zip k.targets, positionRange q.2 ∧ softRange s q.1 q.2
  | .capture _ b p x d sh => addressRange b p ∧ x ≠ 0#8 ∧ allFitted s x ∧ keyframeOctets d sh 0
  | .appendKeyframe _ b p (.explicit ps d sh g) =>
    addressRange b p ∧ keyframeOctets d sh g ∧ ∀ q ∈ ps, positionRange q.2
  | .appendKeyframe _ b p (.capture d sh g) => addressRange b p ∧ keyframeOctets d sh g
  | .appendKeyframe _ _ _ .unreadable => False
  | .erasePreset _ b p => addressRange b p
  | _ => False

/-- Stage 1's refusal code: BAD_AXIS for an axis of a CAPTURE that is not fitted. -/
def editArgumentCode (s : State) : Instr → RefusalCode
  | .capture _ _ _ x _ _ => if x &&& ~~~s.settings.fitted = 0#8 then .badArgument else .badAxis
  | _ => .badArgument

/-- The header and the cue address of an edit request. -/
def editAddress : Instr → Option (Header × Nat × Nat)
  | .storePreset h b p _ _ _ _ | .capture h b p _ _ _ | .appendKeyframe h b p _ | .erasePreset h b p =>
    some (h, b, p)
  | _ => none

/-- Stages 3 to 6 of an edit request on a resolution's result in the state it left. -/
def editChecks (m : Master) (s : State) (r : Resolved) : List (Prop × RefusalCode) :=
  [(r.locked = false, .locked),
   (¬ keysRefuse (s.settings.views.get m).key (recordAt s r.record).key, .keyMismatch),
   (∀ q ∈ s.queue, q.record ≠ r.record, .inUse),
   (s.save = none, .saving)]

/-- An edit request that comes to stage 7: stages 1 to 6 let it through, with a record number n, in the state
s1 that its resolution left. -/
def editReaches (i : Instr) (h : Header) (s0 s1 : State) (n : Nat) : Prop :=
  ∃ b p r, editAddress i = some (h, b, p) ∧ editArguments s0 i ∧ r.record = n ∧
    resolve h.link b p s0 = (s1, .found r) ∧ ∀ c ∈ editChecks h.link s1 r, c.1

/-- STORE PRESET, CAPTURE, APPEND KEYFRAME and ERASE PRESET refuse in the order of their stages: arguments,
resolution, lock, key, a move that holds the record, a save in flight. What the resolution did to the cache
stands. Guard and gate octets above 1 and an appended keyframe in no form are refused BAD_ARGUMENT at stage 1 by the
model's choice (log entry 10). -/
def Obligations.EditRequestsRefuseInOrder : Prop :=
  ∀ (i : Instr) (h : Header) (b p : Nat) (s s0 : State), editAddress i = some (h, b, p) → taken i s s0 →
    judged h s0 (exec i s) [(editArguments s0 i, editArgumentCode s0 i)]
      (∀ s1 x, resolve h.link b p s0 = (s1, x) →
        (∀ c, x = .fault c → exec i s = .next (refusedWith h c s0)) ∧
        (∀ r, x = .found r → judged h s1 (exec i s) (editChecks h.link s1 r) True))

/-- An accepted edit writes one record and answers with some data: nothing else of the state changes. -/
def writesRecord (h : Header) (d : ReplyData) (s1 : State) (n : Nat) (v : PresetRecord)
    (o : Host.Outcome State Fault Refusal) : Prop :=
  ∃ l : Sparse PresetRecord,
    o = .next (okay h d { s1 with store := { s1.store with records := l } }) ∧
    tableWf PresetRecord.cleared 256 l = true ∧
    ∀ k, readAt PresetRecord.cleared k l = if k = n then v else recordAt s1 k

/-- STORE PRESET, CAPTURE and ERASE PRESET on acceptance, in a store that keeps its canonical form: the record
written, and no other. CAPTURE is refused OUT_OF_LIMITS where a D1 lies outside its soft limits. -/
def Obligations.EditsWriteTheirRecord : Prop :=
  ∀ (h : Header) (b p : Nat) (s s0 s1 : State) (n : Nat), storeLaw s0 → n < 256 →
    (∀ x g l ks, let i := Instr.storePreset h b p x g l ks
      taken i s s0 → editReaches i h s0 s1 n →
      writesRecord h (.stored n) s1 n
        { body := some
            { axes := x
              keyframes := ks.map fun k =>
                { targets := PerAxis.ofFn fun a =>
                    if AxisSet.has x a then k.targets[(AxisSet.members x).idxOf a]? else none
                  duration := k.duration, shape := shapeNumbered k.shape, gate := k.gate == 1 }
              label := if l = [] then none else some l }
          key := (s1.settings.views.get h.link).key, guarded := g == 1, author := some h.link }
        (exec i s)) ∧
    (∀ x d sh, let i := Instr.capture h b p x d sh
      taken i s s0 → editReaches i h s0 s1 n →
      let old := recordAt s1 n
      judged h s1 (exec i s) [(∀ a, AxisSet.has x a = true → softRange s1 a (d1Of s1 a), .outOfLimits)]
        (writesRecord h (.captured n ((AxisSet.members x).map (d1Of s1))) s1 n
          { body := some
              { axes := x
                keyframes :=
                  [{ targets := PerAxis.ofFn fun a => if AxisSet.has x a then some (d1Of s1 a) else none
                     duration := d, shape := shapeNumbered sh, gate := false }]
                label := old.body.bind RecordBody.label }
            key := old.key, guarded := old.guarded, author := some h.link }
          (exec i s))) ∧
    (taken (.erasePreset h b p) s s0 → editReaches (.erasePreset h b p) h s0 s1 n →
      let old := recordAt s1 n
      writesRecord h (.stored n) s1 n
        { body := none, key := old.key, guarded := old.guarded, author := old.author }
        (exec (.erasePreset h b p) s))

/-- APPEND KEYFRAME at stage 7, in a store that keeps its canonical form: RECORD_FREE, FULL, then the checks
of its form; on acceptance the keyframe joins the end of the list and the author changes, and nothing else. -/
def Obligations.AppendAddsOneKeyframe : Prop :=
  ∀ (h : Header) (b p : Nat) (k : AppendArg) (s s0 s1 : State) (n : Nat), storeLaw s0 → n < 256 →
    let i := Instr.appendKeyframe h b p k
    taken i s s0 → editReaches i h s0 s1 n →
    let old := recordAt s1 n
    (old.body = none → exec i s = .next (refusedWith h .recordFree s1)) ∧
    ∀ body, old.body = some body →
    let added := fun t d sh g => writesRecord h (.appended n (body.keyframes.length + 1)) s1 n
      { old with
        body := some { body with keyframes := body.keyframes ++
          [{ targets := t, duration := d, shape := shapeNumbered sh, gate := g == 1 }] }
        author := some h.link } (exec i s)
    judged h s1 (exec i s) [(body.keyframes.length < 8, .full)]
      ((∀ ps d sh g, k = .explicit ps d sh g →
        let targets := fun a : Axis => (ps.find? fun q => q.1 == a.number).map Prod.snd
        judged h s1 (exec i s)
          [(ps.length = axisCount body.axes ∧
              (∀ a, AxisSet.has body.axes a = true → ∃ t, targets a = some t ∧ softRange s1 a t), .badArgument)]
          (added (PerAxis.ofFn targets) d sh g)) ∧
      (∀ d sh g, k = .capture d sh g →
        judged h s1 (exec i s)
          [(allFitted s1 body.axes, .badAxis),
           (∀ a, AxisSet.has body.axes a = true → softRange s1 a (d1Of s1 a), .outOfLimits)]
          (added (PerAxis.ofFn fun a =>
            if AxisSet.has body.axes a then some (d1Of s1 a) else none) d sh g)))

/-- QUERY PRESET: its arguments, resolution and the guard check; then the record with its keyframes from the
first asked for, as many as fit the reply (97 octets at 3 an axis and 4 more each, log entry 20). Nothing but
the cache, which the resolution changed, is touched. -/
def Obligations.QueryPresetShowsTheRecord : Prop :=
  ∀ (h : Header) (b p f : Nat) (s s0 : State), let i := Instr.queryPreset h b p f
    taken i s s0 →
    judged h s0 (exec i s) [(addressRange b p ∧ f < 8, .badArgument)]
      (∀ s1 x, resolve h.link b p s0 = (s1, x) →
        (∀ c, x = .fault c → exec i s = .next (refusedWith h c s0)) ∧
        (∀ r, x = .found r →
          let v := recordAt s1 r.record
          let fit := fun y : RecordBody => 97 / (3 * axisCount y.axes + 4)
          judged h s1 (exec i s)
            [(¬ (v.guarded = true ∧ keysRefuse (s1.settings.views.get h.link).key v.key), .guarded)]
            (exec i s = .next (queueReply h
              { refusal := none
                omitted := v.body.elim 0 fun y => (y.keyframes.drop f).length - fit y
                data := .preset
                  { record := r.record, locked := r.locked, key := v.key, guarded := v.guarded
                    author := v.author
                    body := v.body.map fun y =>
                      { axes := y.axes, label := y.label, count := y.keyframes.length
                        keyframes := (y.keyframes.drop f).take (fit y) } } } s1))))

/-- What a SET BANK ENTRY's kind and fields name. -/
def namesTarget (kind : Nat) (fields : List Nat) (t : BankTarget) : Prop :=
  (kind = 0 ∧ fields = [] ∧ t = .empty) ∨
  (∃ n, kind = 1 ∧ fields = [n] ∧ n < 32 ∧ t = .list n) ∨
  ∃ b c, kind = 2 ∧ fields = [b, c] ∧ b < 256 ∧ 1 ≤ c ∧ c ≤ 16 ∧ t = .run b c

/-- SET BANK ENTRY and SET CUE ENTRY, from a master with the privilege, and SET VIEW, in a store that keeps its
canonical form: their checks in order, SAVING last; on acceptance the one entry or view is rewritten, and
nothing else: the cache stands. The order of kinds and views and flag octets above 1 are the model's choice
(log entry 10). -/
def Obligations.StructureRequestsRewriteOneEntry : Prop :=
  ∀ (h : Header) (s s0 : State), storeLaw s0 →
    (∀ d b k l fs, let i := Instr.setBankEntry h d b k l fs
      taken i s s0 → actsAsSupervisor s0 h.link = true →
      judged h s0 (exec i s)
        [(d < 4 ∧ b < 16 ∧ l ≤ 1 ∧ (∃ t, namesTarget k fs t), .badArgument), (s0.save = none, .saving)]
        (∀ t, namesTarget k fs t → ∃ x : Sparse BankEntry,
          exec i s = .next (okay h .none { s0 with store := { s0.store with banks := x } }) ∧
          tableWf BankEntry.cleared 64 x = true ∧
          ∀ n, readAt BankEntry.cleared n x =
            if n = d * 16 + b then { locked := l == 1, target := t }
            else readAt BankEntry.cleared n s0.store.banks)) ∧
    (∀ c p v l r, let i := Instr.setCueEntry h c p v l r
      taken i s s0 → actsAsSupervisor s0 h.link = true →
      judged h s0 (exec i s)
        [(c < 32 ∧ p < 16 ∧ r < 256 ∧ v ≤ 1 ∧ l ≤ 1, .badArgument), (s0.save = none, .saving)]
        (∃ x : Sparse CueEntry,
          exec i s = .next (okay h .none { s0 with store := { s0.store with cues := x } }) ∧
          tableWf CueEntry.cleared 512 x = true ∧
          ∀ n, readAt CueEntry.cleared n x =
            if n = c * 16 + p then { valid := v == 1, locked := l == 1, record := r }
            else readAt CueEntry.cleared n s0.store.cues)) ∧
    (∀ n e d l k, let i := Instr.setView h n e d l k
      taken i s s0 →
      let own := s0.settings.views.get h.link
      judged h s0 (exec i s)
        [(actsAsSupervisor s0 h.link = true ∨
            (n + 1 = masterNumber h.link ∧ e = (if own.enabled then 1 else 0) ∧ k = own.key), .notPermitted),
         (n < 3 ∧ e ≤ 1 ∧ d < 4 ∧ 1 ≤ l ∧ l ≤ 16 ∧ k < 16, .badArgument), (s0.save = none, .saving)]
        (∀ m, n + 1 = masterNumber m → exec i s = .next (okay h .none
          { s0 with settings := { s0.settings with
              views := s0.settings.views.set m
                { enabled := e == 1, directory := d, length := l, key := k } } })))

/-! ## Moves -/

/-- The id k places upward from a counter, wrapping from 255 to 1. -/
def idFrom (n k : Nat) : Nat := (n - 1 + k) % 255 + 1

/-- The cue an argument of kind 0 to 2 names. -/
def cueNumbered (c : CueArg) : Cue :=
  if c.kind = 0 then .now else if c.kind = 1 then .timecode c.timecode else .go

/-- RECALL: its checks in order, with the resolution between the arguments and the record; on acceptance, in a
state that keeps the law of the queue, the moves a CUT removes leave with their handoffs ended, and the new
move joins the end of the queue with the first id from the counter that no move left holds. That the moves a CUT
removes free their ids before is the model's deduction (log entry 15). A filter of kind above 1 is refused
BAD_ARGUMENT by the model's choice (log entry 10), and the reply lists the removed moves in queue order by the model's
choice (log entry 33). -/
def Obligations.RecallChecksThenQueues : Prop :=
  ∀ (h : Header) (b p : Nat) (f : FilterArg) (v : Nat) (c : CueArg) (pol : Nat) (s s0 : State),
    let i := Instr.recallCue h b p f v c pol
    taken i s s0 → queueLaw s0 →
    let filter := if f.kind = 0 then s0.settings.fitted else f.axes
    judged h s0 (exec i s)
      [(f.kind = 1 → allFitted s0 f.axes, .badAxis),
       (f.kind ≤ 1 ∧ filter ≠ 0#8 ∧ addressRange b p ∧ 25 ≤ v ∧ v ≤ 400 ∧ c.kind ≤ 2 ∧ pol ≤ 1,
         .badArgument),
       (c.kind = 1 → timecodeValid s0.settings.rate c.timecode = true, .badTimecode)]
      (∀ s1 y, resolve h.link b p s0 = (s1, y) →
        (∀ code, y = .fault code → exec i s = .next (refusedWith h code s0)) ∧
        (∀ r, y = .found r →
          let old := recordAt s1 r.record
          let x := old.body.elim 0#8 fun w => w.axes &&& filter &&& s1.settings.fitted
          let position := positionInDay s1.settings.rate
          let gone := s1.queue.filter fun m => pol == 1 && m.axes &&& x != 0#8
          let kept := s1.queue.filter fun m => !(pol == 1 && m.axes &&& x != 0#8)
          judged h s1 (exec i s)
            [(old.body ≠ none, .recordFree),
             (¬ (old.guarded = true ∧ keysRefuse (s1.settings.views.get h.link).key old.key), .guarded),
             (x ≠ 0#8, .emptyAxes),
             (∀ a, AxisSet.has x a = true → ownerOf s1 a = some h.link, .notOwner),
             (s1.faults.safeStop = .normal, .faultStop),
             (s1.bus.state = .running, .busStopped),
             (¬ (c.kind = 1 ∧ s1.timecode.run = .running ∧
                position c.timecode ≤ position s1.timecode.counter), .cuePassed),
             (kept.length < 8, .queueFull)]
            (∃ (id k : Nat) (bl : PerAxis Blend),
              exec i s = .next (placeNotices (doneNotices s1 (fun _ => .cut) gone)
                (okay h (.recalled id r.record x (gone.map Move.id))
                  { s1 with
                    queue := kept ++
                      [{ id := id, requester := h.link, record := r.record, axes := x, state := .queued
                         cue := cueNumbered c, satisfied := c.kind == 0, goPending := false, speed := v
                         keyframe := none, segment := none, stopOutcome := none }]
                    nextMoveId := if id = 255 then 1 else id + 1
                    blend := bl })) ∧
              id = idFrom s1.nextMoveId k ∧ id ∉ kept.map Move.id ∧
              (∀ j < k, idFrom s1.nextMoveId j ∈ kept.map Move.id) ∧
              ∀ a, let w := s1.blend.get a
                bl.get a =
                  if w.mode = .handoff ∧ ∃ m ∈ gone, (m.state = .running ∨ m.state = .gated) ∧
                      AxisSet.has m.axes a = true
                  then { w with mode := .live, base := w.live, trim := 0, weight := 0 } else w)))

/-- GO, SPEED and ABORT name a move by id: UNKNOWN_MOVE, then NOT_PERMITTED for a master that is neither the
requester nor holds the supervisor's privileges. GO takes one of its three effects; SPEED rewrites the speed
within 25 to 400; ABORT removes a QUEUED move, leaves a STOPPING one, and makes any other STOPPING with its
HANDOFF axes LIVE and out of every move, and its other axes in HOLD. That an ABORT takes its HANDOFF axes out
of every move is the model's choice (log entry 15). -/
def Obligations.RequestsActOnOneMove : Prop :=
  ∀ (h : Header) (id v : Nat) (s s0 : State),
    (∀ i ∈ [Instr.go h id, .speed h id v, .abort h id], taken i s s0 →
      (∀ m ∈ s0.queue, m.id ≠ id) → exec i s = .next (refusedWith h .unknownMove s0)) ∧
    ∀ m ∈ s0.queue, m.id = id → (s0.queue.map Move.id).Nodup →
    let may := m.requester = h.link ∨ actsAsSupervisor s0 h.link = true
    (taken (.go h id) s s0 → judged h s0 (exec (.go h id) s) [(may, .notPermitted)]
      ((m.goPending = true → exec (.go h id) s = .next (okay h (.went .noChange) s0)) ∧
       (m.goPending = false → m.state = .queued ∧ m.cue = .go ∧ m.satisfied = false →
        exec (.go h id) s = .next (okay h (.went .cueSatisfied)
          { s0 with queue := rewriteMove id (fun q => { q with satisfied := true }) s0.queue })) ∧
       (m.goPending = false → ¬ (m.state = .queued ∧ m.cue = .go ∧ m.satisfied = false) →
        exec (.go h id) s = .next (okay h (.went .goPending)
          { s0 with queue := rewriteMove id (fun q => { q with goPending := true }) s0.queue })))) ∧
    (taken (.speed h id v) s s0 → judged h s0 (exec (.speed h id v) s)
      [(may, .notPermitted), (25 ≤ v ∧ v ≤ 400, .badArgument)]
      (exec (.speed h id v) s = .next (okay h .none
        { s0 with queue := rewriteMove id (fun q => { q with speed := v }) s0.queue }))) ∧
    (taken (.abort h id) s s0 → judged h s0 (exec (.abort h id) s) [(may, .notPermitted)]
      ((m.state = .stopping → exec (.abort h id) s = .next (okay h .none s0)) ∧
       (m.state = .queued → exec (.abort h id) s =
        .next (placeNotices (doneNotices s0 (fun _ => .aborted) [m]) (okay h .none
          { s0 with queue := s0.queue.filter fun q => q.id != id }))) ∧
       (m.state = .running ∨ m.state = .gated →
        let handing := fun a => AxisSet.has m.axes a = true ∧ (s0.blend.get a).mode = .handoff
        ∃ (bl : PerAxis Blend) (q : List Move),
          exec (.abort h id) s = .next
            (placeNotices (doneNotices s0 (fun w => if w.id = id then .aborted else .withdrawn)
                (movesGone s0.queue q))
              (okay h .none { s0 with blend := bl, queue := q })) ∧
          movesWithout handing
            (fun w => if w.id = id then { w with state := .stopping, stopOutcome := some .aborted } else w)
            s0.queue q ∧
          ∀ a, let w := s0.blend.get a
            (handing a → bl.get a = { w with mode := .live, base := w.live, trim := 0, weight := 0 }) ∧
            (AxisSet.has m.axes a = true → ¬ handing a →
              bl.get a = { w with mode := .hold, trim := 0, weight := 0 }) ∧
            (AxisSet.has m.axes a = false → bl.get a = w))))

/-- A segment's length is the least number of frames, at least 1, that covers the duration at the speed; at e of L
the preset position is the formula of its profile; a LINEAR or EASE segment ends on its target and a DWELL segment
where it starts, and every preset position lies between start and target. -/
def Obligations.SegmentsRunFromStartToTarget : Prop :=
  (∀ d v : Nat, 1 ≤ v →
    1 ≤ segmentLength d v ∧ d * 100 ≤ segmentLength d v * v ∧
      ∀ l, 1 ≤ l → d * 100 ≤ l * v → segmentLength d v ≤ l) ∧
  ∀ (sh : Shape) (p : Path) (e l : Nat), 1 ≤ l → e ≤ l →
    presetPosition .linear p e l = p.start + ((p.target - p.start) * e).tdiv l ∧
    presetPosition .ease p e l =
      p.start + ((p.target - p.start) * (3 * (e : Int) ^ 2 * l - 2 * (e : Int) ^ 3)).tdiv ((l : Int) ^ 3) ∧
    presetPosition sh p 0 l = p.start ∧
    presetPosition .linear p l l = p.target ∧ presetPosition .ease p l l = p.target ∧
    presetPosition .dwell p e l = p.start ∧
    min p.start p.target ≤ presetPosition sh p e l ∧ presetPosition sh p e l ≤ max p.start p.target

/-- The start position S of an axis of a move (R86). -/
def startOf (s : State) (k : PerAxis Int) (a : Axis) : Int :=
  (s.demand.get a).d1 - k.get a - if (s.blend.get a).mode = .trim then (s.blend.get a).trim else 0

/-- A keyframe of a move begins and advances by one frame, from a state to a state: the move, its record else as
given, is RUNNING on a segment of that keyframe at e = 1, and each of its axes shows its preset position. -/
def beginsKeyframe (k : PerAxis Int) (n : Nat) (kf : Keyframe) (m : Move) (s t : State) : Prop :=
  ∃ (g : Segment) (bl : PerAxis Blend),
    t = { s with
      blend := bl
      queue := rewriteMove m.id
        (fun _ => { m with state := .running, keyframe := some n, segment := some g }) s.queue } ∧
    g.shape = kf.shape ∧ g.elapsed = 1 ∧ g.length = segmentLength kf.duration m.speed ∧
    ∀ a, (AxisSet.has m.axes a = false → g.paths.get a = none ∧ bl.get a = s.blend.get a) ∧
      ∀ target, AxisSet.has m.axes a = true → kf.targets.get a = some target →
        let p : Path := { start := startOf s k a, target := target }
        g.paths.get a = some p ∧
        bl.get a = { s.blend.get a with preset := presetPosition kf.shape p 1 g.length }

/-- What the first pass does with one move m of the queue. -/
def firstPassOnMove (k : PerAxis Int) (m : Move) (s : State) : Prop :=
  let e := takeMove k m s
  let put := fun m' : Move => rewriteMove m.id (fun _ => m') s.queue
  let stands := e = { state := s, posts := [] }
  (m.state = .queued ∨ m.state = .stopping → stands) ∧
  (m.state = .gated → m.goPending = false → stands) ∧
  (∀ g, m.state = .running → m.segment = some g → g.elapsed < g.length →
    ∃ bl, e = { state := { s with
        blend := bl, queue := put { m with segment := some { g with elapsed := g.elapsed + 1 } } }, posts := [] } ∧
      ∀ a, bl.get a = { s.blend.get a with
        preset := match if AxisSet.has m.axes a then g.paths.get a else none with
          | some p => presetPosition g.shape p (g.elapsed + 1) g.length
          | none => (s.blend.get a).preset }) ∧
  ∀ body, (recordAt s m.record).body = some body →
    let n := m.keyframe.getD 0 + 1
    (∀ kf, m.state = .gated → m.goPending = true →
      body.keyframes[if m.segment = none then 0 else n]? = some kf →
      e.posts = [] ∧
      beginsKeyframe k (if m.segment = none then 0 else n) kf { m with goPending := false } s e.state) ∧
    ∀ g, m.state = .running → m.segment = some g → g.length ≤ g.elapsed →
      (body.keyframes.length ≤ n → e =
        { state := { s with
            queue := s.queue.filter fun q => q.id != m.id
            blend := PerAxis.ofFn fun a =>
              let b := s.blend.get a
              if AxisSet.has m.axes a = true ∧ b.mode = .handoff
              then { b with mode := .live, base := b.live, trim := 0, weight := 0 } else b }
          posts := doneNotices s (fun _ => .done) (s.queue.filter fun q => q.id == m.id) }) ∧
      ∀ kf, body.keyframes[n]? = some kf →
        (kf.gate = true → m.goPending = false →
          e = { state := { s with queue := put { m with state := .gated } }, posts := [] }) ∧
        (kf.gate = false ∨ m.goPending = true →
          e.posts = [] ∧
          beginsKeyframe k n kf { m with goPending := m.goPending && !kf.gate } s e.state)

/-- What the start of an eligible move m gives. -/
def moveStarts (k : PerAxis Int) (m : Move) (s : State) : Prop :=
  ∀ body kf, (recordAt s m.record).body = some body → body.keyframes[0]? = some kf →
    let e := startMove k m s
    let moded : State :=
      { s with
        blend := PerAxis.ofFn fun a =>
          let b := s.blend.get a
          if AxisSet.has m.axes a = true ∧ b.mode ≠ .trim
          then { b with mode := .preset, trim := 0, weight := 0 } else b }
    let told := fun st => withSupervisor s m.requester
      (.moveStarted m.id m.record m.axes st s.bus.frameNumber s.timecode.counter)
    (kf.gate = false ∨ m.goPending = true →
      e.posts = told .running ∧
      beginsKeyframe k 0 kf { m with goPending := m.goPending && !kf.gate } moded e.state) ∧
    (kf.gate = true → m.goPending = false → e =
      { state := { moded with
          queue := rewriteMove m.id (fun _ => { m with state := .gated, keyframe := some 0 }) s.queue
          blend := PerAxis.ofFn fun a =>
            if AxisSet.has m.axes a then { moded.blend.get a with preset := startOf s k a }
            else moded.blend.get a }
        posts := told .gated })

/-- The preset step: a first pass over the moves in queue order, then a second pass over the queue it left. A RUNNING
move advances by a frame, or takes its boundary: it is removed DONE with its handoffs ended, or its next keyframe
begins, or it is GATED at a gate that no GO has opened. A GATED move begins once GO is pending, which is then
spent. QUEUED and STOPPING moves stand. In the second pass every QUEUED move with its cue satisfied that shares no
axis with a move before it starts: its axes outside TRIM go to PRESET, its first keyframe begins or gates it, and
MOVE_STARTED is told. -/
def Obligations.PresetStepTakesAndStartsMoves : Prop :=
  (∀ (k : PerAxis Int) (s : State), presetStep k s =
    (emitEach s.queue (takeMove k) s).andThen fun s => startPass k 0#8 s.queue s) ∧
  (∀ (k : PerAxis Int) (m : Move) (s : State), firstPassOnMove k m s ∧ moveStarts k m s) ∧
  (∀ (k : PerAxis Int) (x : AxisSet) (s : State), startPass k x [] s = { state := s, posts := [] }) ∧
  ∀ (k : PerAxis Int) (x : AxisSet) (m : Move) (l : List Move) (s : State),
    let starts := m.state = .queued ∧ m.satisfied = true ∧ m.axes &&& x = 0#8
    (starts → startPass k x (m :: l) s = (startMove k m s).andThen (startPass k (x ||| m.axes) l)) ∧
    (¬ starts → startPass k x (m :: l) s = startPass k (x ||| m.axes) l s)

/-! ## Modes and coupling -/

/-- A change of an axis to LIVE as SET MODE makes it, from its record b to its record b'. -/
def goesLive (s : State) (a : Axis) (b b' : Blend) (leaves : Prop) : Prop :=
  (b.mode = .live → b' = b ∧ ¬ leaves) ∧
  (b.mode ≠ .live → b' = { b with mode := .live, trim := 0, weight := 0 } ∧
    (leaves ↔ ∃ m ∈ s.queue, m.state ≠ .queued ∧ AxisSet.has m.axes a = true))

/-- SET MODE and TAKE LIVE: their request-level checks; then each owned axis by its table, NOT_OWNER on any
other; an axis that a change to LIVE takes from an active move leaves every move. TAKE LIVE's combinations that
no run reaches are the model's choice (log entry 14). -/
def Obligations.ModeRequestsFollowTheirTables : Prop :=
  ∀ (h : Header) (x : AxisSet) (n : Nat) (s s0 : State),
    let changes := fun (i : Instr) (table : Axis → AxisOutcome → Blend → Blend → Prop → Prop) =>
      ∃ (o : Axis → AxisOutcome) (bl : PerAxis Blend) (q : List Move) (leaves : Axis → Prop),
        exec i s = .next (placeNotices (doneNotices s0 (fun _ => .withdrawn) (movesGone s0.queue q))
          (okay h (.outcomes ((AxisSet.members x).map o)) { s0 with blend := bl, queue := q })) ∧
        movesWithout leaves id s0.queue q ∧
        ∀ a, let b := s0.blend.get a
          let b' := bl.get a
          (AxisSet.has x a = false → b' = b ∧ ¬ leaves a) ∧
          (AxisSet.has x a = true → ownerOf s0 a ≠ some h.link → o a = .notOwner ∧ b' = b ∧ ¬ leaves a) ∧
          (AxisSet.has x a = true → ownerOf s0 a = some h.link → table a (o a) b b' (leaves a))
    (∀ i ∈ [Instr.setMode h x n, .takeLive h x n], taken i s s0 →
      (s0.queue.map Move.id).Nodup →
      judged h s0 (exec i s)
        [(allFitted s0 x, .badAxis),
         (x ≠ 0#8 ∧ (i = .setMode h x n → n ≤ 2) ∧ (i = .takeLive h x n → 1 ≤ n ∧ n ≤ 4000), .badArgument),
         (s0.faults.safeStop = .normal, .faultStop)]
        ((i = .setMode h x n → changes i fun a o b b' leaves =>
          (n = 0 → o = .live ∧ goesLive s0 a b b' leaves) ∧
          (n = 1 → o = .hold ∧ b' = { b with mode := .hold, trim := 0, weight := 0 } ∧ ¬ leaves) ∧
          (n = 2 → b.mode = .preset → o = .trim ∧ b' = { b with mode := .trim, trim := 0 } ∧ ¬ leaves) ∧
          (n = 2 → b.mode ≠ .preset → o = .badMode ∧ b' = b ∧ ¬ leaves)) ∧
        (i = .takeLive h x n → changes i fun a o b b' leaves =>
          let held := ∃ m ∈ s0.queue, (m.state = .running ∨ m.state = .gated) ∧
            AxisSet.has m.axes a = true
          let moving := b.mode = .preset ∨ b.mode = .trim
          (moving → held → o = .handoff ∧ ¬ leaves ∧
            b' = { b with mode := .handoff, weight := 0, step := (256 + n - 1) / n
                          live := max (-8388608) (min 8388607 (d1Of s0 a - couplingOffset s0 a)) }) ∧
          (b.mode = .handoff → o = .handoff ∧ ¬ leaves ∧ b' = { b with step := (256 + n - 1) / n }) ∧
          (b.mode = .hold ∨ b.mode = .live ∨ (moving ∧ ¬ held) → o = .live ∧ goesLive s0 a b b' leaves))))

/-- SET COUPLING, from a master with the privilege: BAD_AXIS for an entry that is to be enabled on an axis not
fitted, then BAD_ARGUMENT; on acceptance a fitted LIVE target of an enabled old entry takes the old term into
its base demand, and the entry is rewritten, its reference the source's D1 where it is enabled and the one it
held where it is not. An axis number above 7 is refused BAD_ARGUMENT by the model's choice (log entry 11),
and so is an enabled octet above 1 (log entry 10). -/
def Obligations.SetCouplingAbsorbsTheOldTerm : Prop :=
  ∀ (h : Header) (n e j k : Nat) (g : Int) (s s0 : State), let i := Instr.setCoupling h n e j k g
    taken i s s0 → actsAsSupervisor s0 h.link = true →
    judged h s0 (exec i s)
      [(e = 1 → ∀ a : Axis, a.number = j ∨ a.number = k → AxisSet.has s0.settings.fitted a = true, .badAxis),
       (n < 4 ∧ e ≤ 1 ∧ j < 8 ∧ k < 8 ∧ j ≠ k ∧ -2048 ≤ g ∧ g ≤ 2047, .badArgument)]
      (∀ (x y : Axis) (hn : n < 4), x.number = j → y.number = k →
        let old := s0.couplings[n]
        let b := s0.blend.get old.target
        exec i s = .next (okay h .none
          { s0 with
            blend :=
              if old.enabled = true ∧ AxisSet.has s0.settings.fitted old.target = true ∧ b.mode = .live then
                s0.blend.set old.target
                  { b with base := b.base + (old.gain * (d1Of s0 old.source - old.reference)).tdiv 256 }
              else s0.blend
            couplings := s0.couplings.set n
              { enabled := e == 1, source := x, target := y, gain := g
                reference := if e = 1 then d1Of s0 x else old.reference } }))

/-! ## Timecode and genlock -/

/-- The value of a field of two digits (R118). -/
def fieldValue (b : Bcd) : Nat := 10 * b.tens + b.ones

/-- A field is valid: two digits and a value below its modulus (R118). -/
def fieldBelow (modulus : Nat) (b : Bcd) : Prop := b.tens ≤ 9 ∧ b.ones ≤ 9 ∧ fieldValue b < modulus

/-- When a timecode is valid at a rate, and its position in day (R118). The field arithmetic of the counter: at every
rate, an advance, a sum and a difference of valid values are valid, and their positions in day are the position after
one frame, the sum and the difference, reduced into the day. -/
def Obligations.CounterArithmeticFollowsThePosition : Prop :=
  (∀ (r : Rate) (t : Timecode),
    (timecodeValid r t = true ↔
      fieldBelow 24 t.hh ∧ fieldBelow 60 t.mm ∧ fieldBelow 60 t.ss ∧ fieldBelow (perSecond r) t.ff) ∧
    positionInDay r t =
      ((fieldValue t.hh * 60 + fieldValue t.mm) * 60 + fieldValue t.ss) * perSecond r + fieldValue t.ff) ∧
  ∀ (r : Rate) (t v : Timecode), timecodeValid r t = true → timecodeValid r v = true →
    let day := 86400 * perSecond r
    let p := positionInDay r
    p t < day ∧
    (timecodeValid r (advanceCounter r t) = true ∧ p (advanceCounter r t) = (p t + 1) % day) ∧
    (timecodeValid r (addTimecode r t v) = true ∧ p (addTimecode r t v) = (p t + p v) % day) ∧
    (timecodeValid r (subtractTimecode r t v) = true ∧
      p (subtractTimecode r t v) = (p t + day - p v) % day)

/-- A move that waits on a timecode cue for which a test holds. -/
def waitsOn (p : Timecode → Bool) (m : Move) : Bool :=
  m.state == .queued && !m.satisfied &&
    match m.cue with
    | .timecode t => p t
    | .now | .go => false

/-- GENLOCK_PULSE and GENLOCK_LOSS_EVENT: before READY a pulse is not taken; a pulse captures and restarts the
period counter and acts by the lock state found; a LOCKED good period advances a RUNNING counter and satisfies
the moves that wait on the value it reaches; the threshold takes LOCKED to LOST and empties the count of
LOCKING. -/
def Obligations.PulsesDriveTheMonitor : Prop :=
  ∀ (dt : Nat) (s : State),
    let s1 := elapse dt s
    let u := s1.timecode
    let w := goodWindow s1.settings.rate
    let good := w.1 ≤ u.period ∧ u.period ≤ w.2
    let pulsed := fun l n => { u with captured := some u.period, period := 0, lock := l, good := n }
    let gives := fun t => exec (.genlockPulse dt) s = .next { s1 with timecode := t }
    let next := advanceCounter s1.settings.rate u.counter
    (s1.startup.phase ≠ .ready → exec (.genlockPulse dt) s = .next s1) ∧
    (s1.startup.phase = .ready →
      (u.lock = .noReference ∨ u.lock = .lost → gives (pulsed .locking 0)) ∧
      (u.lock = .locking → good → u.good < 3 → gives (pulsed .locking (u.good + 1))) ∧
      (u.lock = .locking → good → 3 ≤ u.good → gives (pulsed .locked 4)) ∧
      (u.lock = .locking → ¬ good → gives (pulsed .locking 0)) ∧
      (u.lock = .locked → good → u.run = .stopped → gives (pulsed .locked 4)) ∧
      (u.lock = .locked → good → u.run = .running → exec (.genlockPulse dt) s = .next
        { s1 with
          timecode := { pulsed .locked 4 with counter := next }
          queue := s1.queue.map fun m =>
            if waitsOn (fun t => t == next) m then { m with satisfied := true } else m }) ∧
      (u.lock = .locked → ¬ good → exec (.genlockPulse dt) s =
        .next (raise .genlockLost carriesNothing { s1 with timecode := pulsed .lost 0 }).settle)) ∧
    let due := lossCounts s1.settings.rate ≤ u.period
    (due → u.lock = .locked → exec (.genlockLossEvent dt) s =
      .next (raise .genlockLost carriesNothing { s1 with timecode := { u with lock := .lost, good := 0 } }).settle) ∧
    (due → u.lock = .locking →
      exec (.genlockLossEvent dt) s = .next { s1 with timecode := { u with good := 0 } }) ∧
    (¬ due ∨ u.lock = .noReference ∨ u.lock = .lost → exec (.genlockLossEvent dt) s = .next s1)

/-- TC RUN and TC STOP set the run state and nothing else, from a master with the privilege. -/
def runAndStopSetTheRunState : Prop :=
  ∀ (h : Header) (s s0 : State),
    (taken (.tcRun h) s s0 →
      (actsAsSupervisor s0 h.link = true → exec (.tcRun h) s = .next (okay h .none
        { s0 with timecode := { s0.timecode with run := .running } })) ∧
      (actsAsSupervisor s0 h.link = false → exec (.tcRun h) s = .next (refusedWith h .notPermitted s0))) ∧
    (taken (.tcStop h) s s0 →
      (actsAsSupervisor s0 h.link = true → exec (.tcStop h) s = .next (okay h .none
        { s0 with timecode := { s0.timecode with run := .stopped } })) ∧
      (actsAsSupervisor s0 h.link = false → exec (.tcStop h) s = .next (refusedWith h .notPermitted s0)))

/-- SET TIMECODE, OFFSET TIMECODE and SET RATE, from a master with the privilege: their checks; a written
counter removes CUE_MISSED the moves whose cue lies above its old position and not above its new one; a new
rate keeps the counter but for a frame field above it, forgets the reference and removes the moves whose frame
field is not below it. The sign octets are the model's choice (log entry 10). -/
def counterRequestsWriteAndMiss : Prop :=
  ∀ (h : Header) (s s0 : State), actsAsSupervisor s0 h.link = true →
    let u := s0.timecode
    let r := s0.settings.rate
    let p := positionInDay r
    let missing := fun (q : Timecode → Bool) (d : ReplyData) (s' : State) =>
      placeNotices (doneNotices s0 (fun _ => .cueMissed) (s0.queue.filter (waitsOn q)))
        (okay h d { s' with queue := s0.queue.filter fun m => !(waitsOn q m) })
    let written := fun c d => missing (fun t => decide (p u.counter < p t ∧ p t ≤ p c)) d
      { s0 with timecode := { u with counter := c } }
    (∀ v, taken (.setTimecode h v) s s0 → judged h s0 (exec (.setTimecode h v) s)
      [(timecodeValid r v = true, .badTimecode)]
      (exec (.setTimecode h v) s = .next (written v .none))) ∧
    (∀ n v, taken (.offsetTimecode h n v) s s0 → judged h s0 (exec (.offsetTimecode h n v) s)
      [(n ≤ 1, .badArgument), (timecodeValid r v = true, .badTimecode)]
      (let c := if n = 0 then addTimecode r u.counter v else subtractTimecode r u.counter v
       exec (.offsetTimecode h n v) s = .next (written c (.counter c)))) ∧
    (∀ n, taken (.setRate h n) s s0 → judged h s0 (exec (.setRate h n) s)
      [(n = 24 ∨ n = 25 ∨ n = 30, .badArgument), (u.run = .stopped, .tcRunning)]
      (∀ new, perSecond new = n →
        (new = r → exec (.setRate h n) s = .next (okay h .none s0)) ∧
        (new ≠ r → exec (.setRate h n) s = .next (missing (fun t => decide (n ≤ fieldValue t.ff)) .none
          { s0 with
            settings := { s0.settings with rate := new }
            timecode :=
              { u with
                counter := { u.counter with ff :=
                  let f := min (fieldValue u.counter.ff) (n - 1)
                  { tens := f / 10, ones := f % 10 } }
                lock := .noReference, good := 0, period := 0, captured := none } }))))

/-- TC RUN and TC STOP set the run state and nothing else. SET TIMECODE, OFFSET TIMECODE and SET RATE: their checks; a
written counter removes CUE_MISSED the moves whose cue lies above its old position and not above its new one; a new
rate keeps the counter but for a frame field above it, forgets the reference and removes the moves whose frame field
is not below it. All from a master with the privilege. The sign octets are the model's choice (log entry 10). -/
def Obligations.TimecodeRequestsRunWriteAndMiss : Prop :=
  runAndStopSetTheRunState ∧ counterRequestsWriteAndMiss

/-! ## The drive bus -/

/-- The slot a slot octet names: the kind in its high four bits, the axis in its low four (11.7.2); the axis number of
an UNUSED slot is not read (log entry 24). -/
def slotNamed (o : Nat) (x : Slot) : Prop :=
  (o < 16 ∧ x = .unused) ∨ ∃ a : Axis, (o = 16 + a.number ∧ x = .demand a) ∨ (o = 32 + a.number ∧ x = .feedback a)

/-- The slots a slot map gives a value. -/
def slotsHolding (s : State) (x : Slot) : Nat := (s.settings.slots.toList.filter fun y => y == x).length

/-- SET BUS CONFIG, BUS START and BUS STOP, from a master with the privilege: their checks in order, and what
each sets. The axis number of an UNUSED slot is not read (log entry 24), and BUS START makes the captured sync
period absent (log entry 17). -/
def Obligations.BusRequestsConfigureStartAndStop : Prop :=
  ∀ (h : Header) (s s0 : State), actsAsSupervisor s0 h.link = true →
    (∀ r n l, let i := Instr.setBusConfig h r n l
      taken i s s0 → judged h s0 (exec i s)
        [(r ≤ 1 ∧ 250 ≤ n ∧ n ≤ 4000 ∧ l.length = 16 ∧ (∀ o ∈ l, ∃ x, slotNamed o x), .badArgument),
         (s0.bus.state = .stopped, .busRunning)]
        (∃ m : Vector Slot 16, (∀ k : Fin 16, ∃ o, l[k.val]? = some o ∧ slotNamed o m[k]) ∧
          exec i s = .next (okay h .none
            { s0 with settings := { s0.settings with
                role := if r = 0 then .frameMaster else .follower, period := n, slots := m } }))) ∧
    (taken (.busStart h) s s0 → judged h s0 (exec (.busStart h) s)
      [(s0.bus.state = .stopped, .busRunning),
       (∀ a, let n := if AxisSet.has s0.settings.fitted a then 1 else 0
          slotsHolding s0 (.demand a) = n ∧ slotsHolding s0 (.feedback a) = n, .slotMap)]
      (exec (.busStart h) s = .next (okay h .none
        { s0 with bus := { s0.bus with
            state := .running, frameNumber := 0#32, sequence := 0#8, syncCounter := 0
            capturedSync := none, edgeSeen := false
            sync := if s0.settings.role = .frameMaster then .idle else .waiting
            drives := PerAxis.ofFn fun a =>
              let d := s0.bus.drives.get a
              if AxisSet.has s0.settings.fitted a then
                { d with
                  silent := 0, following := 0, echo := .none, state := .notReady, sentBefore := none
                  sent := some { position := d1Of s0 a, enabled := false, sequence := 0#8 } }
              else d } }))) ∧
    (taken (.busStop h) s s0 → judged h s0 (exec (.busStop h) s)
      [(∀ a, AxisSet.has s0.settings.fitted a = true → isEnabled s0 a = false, .axesEnabled),
       (∀ m ∈ s0.queue, m.state = .queued, .moveActive)]
      ((s0.bus.state = .stopped → exec (.busStop h) s = .next (okay h .none s0)) ∧
       (s0.bus.state = .running → exec (.busStop h) s = .next (okay h .none
        { s0 with bus := { s0.bus with state := .stopped, sync := .idle, syncCounter := 0 } }))))

/-- ENABLE and DISABLE: their request-level checks, then the outcome of each named axis and its drive enable;
no other part of the state changes. That ENABLE leaves the mode of an axis as a mode request before the frame set it
is the model's choice (log entry 27). -/
def Obligations.EnableAndDisableWriteTheEnables : Prop :=
  ∀ (h : Header) (x : AxisSet) (s s0 : State),
    let writes := fun (i : Instr) (table : Axis → AxisOutcome → DriveEnable → Prop) =>
      ∃ (o : Axis → AxisOutcome) (e : PerAxis DriveEnable),
        exec i s = .next (okay h (.outcomes ((AxisSet.members x).map o))
          { s0 with bus := { s0.bus with
              drives := PerAxis.ofFn fun a => { s0.bus.drives.get a with enable := e.get a } } }) ∧
        ∀ a, (AxisSet.has x a = false → e.get a = (s0.bus.drives.get a).enable) ∧
          (AxisSet.has x a = true → table a (o a) (e.get a))
    (taken (.enable h x) s s0 → judged h s0 (exec (.enable h x) s)
      [(allFitted s0 x, .badAxis), (x ≠ 0#8, .badArgument), (s0.faults.safeStop ≠ .stopping, .faultStop)]
      (writes (.enable h x) fun a o e =>
        let d := s0.bus.drives.get a
        let stands := fun c => o = c ∧ e = d.enable
        let owns := ownerOf s0 a = some h.link
        let idle := owns ∧ d.enable = .released ∧ s0.bus.latch = false ∧ s0.bus.state = .running
        let answering := d.state = .ready ∧ d.echo = .good
        (¬ owns → stands .notOwner) ∧
        (owns → d.enable = .enabled → stands .enabled) ∧
        (owns → d.enable = .released → s0.bus.latch = true → stands .latched) ∧
        (owns → d.enable = .released → s0.bus.latch = false → s0.bus.state = .stopped →
          stands .busStopped) ∧
        (idle → ¬ answering → stands .driveNotReady) ∧
        (idle → answering → ¬ softRange s0 a d.feedback → stands .outOfLimits) ∧
        (idle → answering → softRange s0 a d.feedback → o = .enabled ∧ e = .enabled))) ∧
    (taken (.disable h x) s s0 → judged h s0 (exec (.disable h x) s)
      [(allFitted s0 x, .badAxis), (x ≠ 0#8, .badArgument)]
      (writes (.disable h x) fun a o e =>
        (ownerOf s0 a = some h.link → o = .disabled ∧ e = .released) ∧
        (ownerOf s0 a ≠ some h.link → o = .notOwner ∧ e = (s0.bus.drives.get a).enable)))

/-- FRAME_START is a frame of a RUNNING frame master, with a pulse on BUS SYNC; BUS_SYNC_EDGE is a frame of a
part whose sync state is not IDLE, which captures and restarts the sync counter; BUS_SYNC_LOST raises its
source when the counter has reached 1.5 frame periods in WAITING or PRESENT. Elsewhere none has an effect. -/
def Obligations.FrameSourcesFollowRoleAndSync : Prop :=
  ∀ (dt : Nat) (w : SlotWords) (s : State),
    let s1 := elapse dt s
    let u := s1.bus
    let starts := u.state = .running ∧ s1.settings.role = .frameMaster
    let due := (u.sync = .waiting ∨ u.sync = .present) ∧ 15 * s1.settings.period ≤ u.syncCounter
    (¬ starts → exec (.frameStart dt w) s = .next s1) ∧
    (starts → exec (.frameStart dt w) s =
      .next (frame w { s1 with bus := { u with syncPulses := u.syncPulses + 1 } }).settle) ∧
    (u.sync = .idle → exec (.busSyncEdge dt w) s = .next s1) ∧
    (u.sync ≠ .idle → exec (.busSyncEdge dt w) s = .next (frame w
      { s1 with bus := { u with
          capturedSync := if u.edgeSeen then some u.syncCounter else none
          edgeSeen := true, syncCounter := 0, sync := .present } }).settle) ∧
    (¬ due → exec (.busSyncLost dt) s = .next s1) ∧
    (due → exec (.busSyncLost dt) s =
      .next (raise .busSyncLost carriesNothing { s1 with bus := { u with sync := .lost } }).settle)

/-- What the three checks of a frame do with one axis, on the words its FEEDBACK slots brought and the drive states
before the frame: DRIVE_SILENT is raised when the silent count reaches 3 from 2, DRIVE_FAULT when the state changes
to FAULT, FOLLOWING when the following count reaches the persistence, each with the axis. -/
def checksRaise (w : PerAxis (Option FeedbackWord)) (before : PerAxis DriveState) (a : Axis) (s : State) : Prop :=
  let d := s.bus.drives.get a
  let l := s.settings.limits.get a
  let put := fun d' : Drive => { s with bus := { s.bus with drives := s.bus.drives.set a d' } }
  let info : RaiseInfo := { axes := some a.alone, zone := none, master := none }
  let stands := fun t : State => ({ state := t, posts := [] } : Emit)
  let echoes := fun v => ∃ f, w.get a = some f ∧
    ((∃ u, d.sent = some u ∧ u.sequence = f.echo ∧ v = u) ∨
      ((∀ u, d.sent = some u → u.sequence ≠ f.echo) ∧ ∃ u, d.sentBefore = some u ∧ u.sequence = f.echo ∧ v = u))
  let good := put { d with echo := .good, silent := 0 }
  let stale := put { d with echo := .stale, silent := min 3 (d.silent + 1) }
  ((∃ v, echoes v) → echoCheck w a s = stands good) ∧
  ((¬ ∃ v, echoes v) → d.silent = 2 → echoCheck w a s = raise .driveSilent info stale) ∧
  ((¬ ∃ v, echoes v) → d.silent ≠ 2 → echoCheck w a s = stands stale) ∧
  (d.state = .fault → before.get a ≠ .fault → driveStateCheck before a s = raise .driveFault info s) ∧
  (d.state ≠ .fault ∨ before.get a = .fault → driveStateCheck before a s = stands s) ∧
  ∃ n, (n = l.followingPersistence → d.following < n →
      followingCheck w a s = raise .following info (put { d with following := n })) ∧
    (n ≠ l.followingPersistence ∨ n ≤ d.following → followingCheck w a s = stands (put { d with following := n })) ∧
    ((¬ ∃ v, echoes v) → d.echo = .stale → n = d.following) ∧
    ∀ v, echoes v → d.echo = .good →
      let lags := l.followingLimit ≠ 0 ∧ v.enabled = true ∧ l.followingLimit < (v.position - d.feedback).natAbs
      (lags → n = min 255 (d.following + 1)) ∧ (¬ lags → n = 0)

/-- What a frame leaves of the drive bus interface, for an axis whose FEEDBACK slot is n. -/
def frameLeavesDrive (w : SlotWords) (s : State) (a : Axis) (n : Fin 16) : Prop :=
  let t := (frame w s).state
  let d := s.bus.drives.get a
  let d' := t.bus.drives.get a
  let q := s.bus.sequence + 1#8
  let mine : SentWord := { position := d1Of s a, enabled := isEnabled s a, sequence := q }
  let l := s.settings.limits.get a
  d'.sent = some mine ∧ d'.sentBefore = d.sent ∧
  (w[n] = none → d'.feedback = d.feedback ∧ d'.state = d.state) ∧
  (∀ f, w[n] = some f → d'.feedback = f.position.toInt ∧ d'.state = f.state) ∧
  let echoes := fun v => ∃ f, w[n] = some f ∧
    (if f.echo = q then v = mine else ∃ u, d.sent = some u ∧ f.echo = u.sequence ∧ v = u)
  ((∃ v, echoes v) → d'.echo = .good ∧ d'.silent = 0) ∧
  ((¬ ∃ v, echoes v) → d'.echo = .stale ∧ d'.silent = min 3 (d.silent + 1) ∧ d'.following = d.following) ∧
  ∀ v, echoes v →
    let lags := l.followingLimit ≠ 0 ∧ v.enabled = true ∧
      l.followingLimit < (v.position - d'.feedback).natAbs
    (lags → d'.following = min 255 (d.following + 1)) ∧ (¬ lags → d'.following = 0)

/-- A frame: the sequence and the frame number rise by 1; each fitted axis is sent its D1 with its enable flag in its
DEMAND slot, and keeps its word of the frame before; a word its FEEDBACK slot received intact replaces position and
state; the echo state is GOOD on an echo of either word and otherwise STALE with the silent count raised to at most
3; the following count rises while the echoed enabled demand and the feedback differ by more than the limit, is 0
otherwise, and stands while the echo is STALE. The checks raise their sources, each check on every fitted axis in
channel order (log entry 16), and the frame computation follows. A frame enables no drive, and channels that are not
fitted keep their items. What the part put into each slot is the model's own record (log entry 21). -/
def Obligations.FramesSendReceiveAndCheck : Prop :=
  (∀ (w : SlotWords) (s : State) (a : Axis),
    let t := (frame w s).state
    let d := s.bus.drives.get a
    let d' := t.bus.drives.get a
    let q := s.bus.sequence + 1#8
    t.bus.sequence = q ∧ t.bus.frameNumber = s.bus.frameNumber + 1#32 ∧ t.bus.state = s.bus.state ∧
    (∀ n : Fin 16,
      (s.settings.slots[n] = .demand a → AxisSet.has s.settings.fitted a = true →
        t.bus.slotWords[n] = some { position := d1Of s a, enabled := isEnabled s a, sequence := q }) ∧
      (s.settings.slots[n] = .demand a → AxisSet.has s.settings.fitted a = false → t.bus.slotWords[n] = none) ∧
      (s.settings.slots[n] = .feedback a ∨ s.settings.slots[n] = .unused → t.bus.slotWords[n] = none)) ∧
    (isEnabled t a = true → isEnabled s a = true) ∧
    (AxisSet.has s.settings.fitted a = false → d' = { d with enable := d'.enable }) ∧
    (AxisSet.has s.settings.fitted a = true → ∀ n : Fin 16, s.settings.slots[n] = .feedback a →
      (∀ k : Fin 16, s.settings.slots[k] = .feedback a → k = n) → frameLeavesDrive w s a n)) ∧
  (∀ (w : PerAxis (Option FeedbackWord)) (before : PerAxis DriveState) (a : Axis) (s : State),
    checksRaise w before a s) ∧
  ∀ (w : SlotWords) (s : State),
    let f := AxisSet.members s.settings.fitted
    let before := PerAxis.ofFn fun a => (s.bus.drives.get a).state
    let brought := readSlots w s
    frame w s = (((emitEach f (echoCheck brought) (receive brought (transmit s))).andThen
      (emitEach f (driveStateCheck before))).andThen (emitEach f (followingCheck brought))).andThen fun t =>
        frameComputation { t with bus := { t.bus with frameNumber := t.bus.frameNumber + 1#32 } }

/-! ## Fault control -/

/-- The state after a safe-stop entry with a cause, and its notices: every axis is in HOLD; QUEUED moves are removed
FAULT; with a fitted axis ENABLED the safe stop is STOPPING, the stop timer runs and the other moves are STOPPING;
otherwise it is RELEASED, and they are removed FAULT as well. -/
def entersStop (c : StopCause) (s t : State) (l : List Post) : Prop :=
  let queued := s.queue.filter fun m => m.state == .queued
  let others := s.queue.filter fun m => m.state != .queued
  let removed := doneNotices s fun _ => .fault
  let moving := ∃ a, isDriven s a
  t.faults.cause = c ∧
  (∀ a, t.blend.get a = { s.blend.get a with mode := .hold, trim := 0, weight := 0 }) ∧
  (moving → t.faults.safeStop = .stopping ∧
    t.faults.stopTimer = some (s.timebase.ms + 100 * s.settings.stopTime) ∧ t.bus = s.bus ∧
    t.queue = others.map (fun m => { m with state := .stopping, stopOutcome := some .fault }) ∧
    l = removed queued) ∧
  (¬ moving → t.faults.safeStop = .released ∧ t.faults.stopTimer = none ∧ t.queue = [] ∧
    t.bus.latch = true ∧ (∀ a, isEnabled t a = false) ∧ l = removed queued ++ removed others)

/-- What a raise records and tells, whatever its actions: the first-fault record is captured where every flag was
clear and stands otherwise; the source's flag is set and its axes added, and every other source stands; DELAY starts
a stopped escalation timer; NOTICE is told to every link in use, before the other notices of the raise; settings,
owners, demand histories and ports stand. -/
def raiseRecords (src : FaultSource) (info : RaiseInfo) (s : State) (e : Emit) (l : List Post) : Prop :=
  let u := s.faults
  let acts := actionSet s src
  (anyFlag s = true → e.state.faults.first = u.first) ∧
  (anyFlag s = false → e.state.faults.first = some
    { source := src, info := info, timecode := s.timecode.counter, frameNumber := s.bus.frameNumber
      time := s.timebase.ms }) ∧
  sourceState e.state src = { flag := true, axes := (sourceState s src).axes ||| info.axes.getD 0#8 } ∧
  (∀ other, other ≠ src → sourceState e.state other = sourceState s other) ∧
  e.state.faults.escalation =
    (if acts.delay = true ∧ u.escalation = none
      then some (s.timebase.ms + 10 * s.settings.escalationDelay) else u.escalation) ∧
  e.posts = (if acts.notice then (linksInUse s).map fun m => ⟨m, .fault src info (!anyFlag s)⟩ else []) ++ l ∧
  ∃ bl q b f, e.state = { s with blend := bl, queue := q, bus := b, faults := f }

/-- The axes that the HOLD action of a raise names (R146): the axis set of the raise for DRIVE_SILENT, DRIVE_FAULT,
FOLLOWING, AXIS_LIMIT and ZONE_ENTRY; the axes that the named master owns for LINK_x_ERROR and STALE_x; every axis for
BUS_SYNC_LOST, GENLOCK_LOST and CONFIG_INVALID; none for the two sources whose sets are fixed. -/
def heldByRaise (info : RaiseInfo) (s : State) (a : Axis) : FaultSource → Prop
  | .driveSilent | .driveFault | .following | .axisLimit | .zoneEntry =>
    ∃ x, info.axes = some x ∧ AxisSet.has x a = true
  | .linkAError | .linkBError | .linkSError | .staleA | .staleB | .staleS =>
    ∃ m, info.master = some m ∧ (s.authority.get a).owner = some m
  | .busSyncLost | .genlockLost | .configInvalid => True
  | .estop | .stopOverrun => False

/-- What the HOLD action of a raise leaves for the actions after it: the fitted axes of its scope are in HOLD, out of
every move, and the moves left without axes are removed WITHDRAWN; without HOLD all stands. -/
def raiseHolds (src : FaultSource) (info : RaiseInfo) (s mid : State) (l : List Post) : Prop :=
  let held := fun a => AxisSet.has s.settings.fitted a = true ∧ heldByRaise info s a src
  ((actionSet s src).hold = false → mid = s ∧ l = []) ∧
  ((actionSet s src).hold = true → (∃ bl q, mid = { s with blend := bl, queue := q }) ∧
    movesWithout held id s.queue mid.queue ∧
    l = doneNotices s (fun _ => .withdrawn) (movesGone s.queue mid.queue) ∧
    ∀ a, (held a → mid.blend.get a = { s.blend.get a with mode := .hold, trim := 0, weight := 0 }) ∧
      (¬ held a → mid.blend.get a = s.blend.get a))

/-- A raise records and tells, then takes HOLD on the axes that R146 names for its source, then SAFE_STOP, and ESTOP its
RELEASE. SAFE_STOP enters the safe stop from NORMAL alone, with the source as its cause; RELEASE takes NORMAL and
STOPPING to RELEASED with the cause ESTOP, and RELEASED stands. Without either the safe stop and the bus stand.
Safe-stop entry by itself is taken from NORMAL alone, with the cause it is given. -/
def Obligations.RaisesRecordNotifyAndStop : Prop :=
  (∀ (src : FaultSource) (info : RaiseInfo) (s : State), (s.queue.map Move.id).Nodup →
      let e := raise src info s
      let t := e.state
      ∃ (mid : State) (l l' : List Post), raiseRecords src info s e (l ++ l') ∧
        raiseHolds src info s mid l ∧
        let stands := t.faults.safeStop = s.faults.safeStop ∧ t.faults.stopTimer = s.faults.stopTimer ∧
          t.faults.cause = s.faults.cause ∧ t.bus = s.bus ∧ t.blend = mid.blend ∧ t.queue = mid.queue ∧ l' = []
        (src ≠ .estop → (actionSet s src).safeStop = false ∨ s.faults.safeStop ≠ .normal → stands) ∧
        (src ≠ .estop → (actionSet s src).safeStop = true → s.faults.safeStop = .normal →
          entersStop (.source src) mid t l') ∧
        (src = .estop → s.faults.safeStop = .released → stands) ∧
        (src = .estop → s.faults.safeStop ≠ .released →
          t.faults.cause = .estop ∧ t.faults.safeStop = .released ∧ t.faults.stopTimer = none ∧ t.queue = [] ∧
          t.bus.latch = true ∧ (∀ a, isEnabled t a = false) ∧
          (s.faults.safeStop = .stopping → t.blend = s.blend ∧ l' = doneNotices s (fun _ => .fault) s.queue) ∧
          (s.faults.safeStop = .normal →
            (∀ a, t.blend.get a = { s.blend.get a with mode := .hold, trim := 0, weight := 0 }) ∧
            l' = doneNotices s (fun _ => .fault) (s.queue.filter fun m => m.state == .queued) ++
              doneNotices s (fun _ => .fault) (s.queue.filter fun m => m.state != .queued)))) ∧
  ∀ (c : StopCause) (s : State),
    let e := safeStopEntry c s
    (s.faults.safeStop ≠ .normal → e = { state := s, posts := [] }) ∧
    (s.faults.safeStop = .normal → entersStop c s e.state e.posts)

/-- ESTOP releases every drive and sets the latch whether or not start-up has reached READY, and from READY on
raises its source; an input already active does not become so. ESTOP_INACTIVE changes the input alone. Either
timer acts when the timebase has reached it, and not before: the escalation timer stops and the safe stop is
entered; the stop timer raises STOP_OVERRUN in STOPPING and takes the safe stop to RELEASED. -/
def Obligations.EstopAndTimersAct : Prop :=
  ∀ (dt : Nat) (s : State),
    let s1 := elapse dt s
    let u := s1.faults
    let released : State := { s1 with
      bus := { s1.bus with
        latch := true
        drives := PerAxis.ofFn fun a => { s1.bus.drives.get a with enable := .released } }
      faults := { u with estopActive := true } }
    (u.estopActive = true → exec (.estop dt) s = .next s1) ∧
    (u.estopActive = false → s1.startup.phase ≠ .ready → exec (.estop dt) s = .next released) ∧
    (u.estopActive = false → s1.startup.phase = .ready →
      exec (.estop dt) s = .next (raise .estop carriesNothing released).settle ∧
      (raise .estop carriesNothing released).state.faults.safeStop = .released) ∧
    exec (.estopInactive dt) s = .next { s1 with faults := { u with estopActive := false } } ∧
    (∀ t, u.escalation = some t → t ≤ s1.timebase.ms → exec (.escalationExpiry dt) s =
      .next (safeStopEntry .escalation { s1 with faults := { u with escalation := none } }).settle) ∧
    ((∀ t, u.escalation = some t → s1.timebase.ms < t) → exec (.escalationExpiry dt) s = .next s1) ∧
    (∀ t, u.stopTimer = some t → u.safeStop = .stopping → t ≤ s1.timebase.ms →
      let e := raise .stopOverrun carriesNothing s1
      exec (.stopTimerExpiry dt) s = .next (placeNotices (e.posts ++ (releasedFrom e.state).posts)
        (releasedFrom e.state).state)) ∧
    (u.safeStop ≠ .stopping ∨ (∀ t, u.stopTimer = some t → s1.timebase.ms < t) →
      exec (.stopTimerExpiry dt) s = .next s1)

/-- The sources in the order of their ids, and which of their conditions persist (the first and the last column of
R143). -/
def sourcesAndConditions : Prop :=
  FaultSource.all = [.estop, .stopOverrun, .busSyncLost, .driveSilent, .driveFault, .following, .zoneEntry,
    .axisLimit, .linkAError, .linkBError, .linkSError, .staleA, .staleB, .staleS, .genlockLost, .configInvalid] ∧
  FaultSource.all.map (fun src => src.id.val) = List.range 16 ∧
  ∀ (s : State) (src : FaultSource), conditionPersists s src = true ↔
    (src = .estop ∧ s.faults.estopActive = true) ∨
    (src = .busSyncLost ∧ s.bus.sync = .lost) ∨
    (src = .driveFault ∧ ∃ a, AxisSet.has (sourceState s .driveFault).axes a = true ∧
      (s.bus.drives.get a).state = .fault) ∨
    (∃ m, src = staleOf m ∧ (s.joysticks.get m).stale = .stale) ∨
    (src = .genlockLost ∧ s.timecode.lock = .lost)

/-- SET FAULT ACTIONS and SET FAULT TIMERS, from a master with the privilege: BAD_ARGUMENT for a source above
15, ESTOP, STOP_OVERRUN, an action octet above 31 or a timer outside its range; otherwise the action set or the
two settings are replaced, and a running escalation timer without a DELAY flag left stops. FAULT CLEAR, from a
master with the privilege: BAD_ARGUMENT for the empty set; otherwise the named sources whose condition does not
persist are cleared, the reply lists those that stay set, the escalation timer and the first-fault record are
judged again, and nothing but the fault unit changes. -/
def faultRequestsSetAndClear : Prop :=
  (∀ (h : Header) (n k : Nat) (s s0 : State), actsAsSupervisor s0 h.link = true →
      (taken (.setFaultActions h n k) s s0 → judged h s0 (exec (.setFaultActions h n k) s)
        [(2 ≤ n ∧ n ≤ 15 ∧ k < 32, .badArgument)]
        (∀ src : FaultSource, src.id.val = n →
          let acts : ActionSet :=
            { notice := k.testBit 0, hold := k.testBit 1, delay := k.testBit 2, safeStop := k.testBit 3
              faultLine := k.testBit 4 }
          let s2 : State := { s0 with settings := { s0.settings with
            actions := s0.settings.actions.set src.id acts } }
          let wanted := ∃ x, flagSet s0 x = true ∧ (actionSet s2 x).delay = true
          (wanted → exec (.setFaultActions h n k) s = .next (okay h .none s2)) ∧
          (¬ wanted → exec (.setFaultActions h n k) s = .next (okay h .none
            { s2 with faults := { s0.faults with escalation := none } })))) ∧
      (taken (.setFaultTimers h n k) s s0 → judged h s0 (exec (.setFaultTimers h n k) s)
        [(1 ≤ n ∧ n ≤ 1000 ∧ 1 ≤ k ∧ k ≤ 100, .badArgument)]
        (exec (.setFaultTimers h n k) s = .next (okay h .none
          { s0 with settings := { s0.settings with escalationDelay := n, stopTime := k } })))) ∧
  (∀ (h : Header) (x : BitVec 16) (s s0 : State), let i := Instr.faultClear h x
      taken i s s0 → actsAsSupervisor s0 h.link = true →
      judged h s0 (exec i s) [(x ≠ 0#16, .badArgument)]
        (∃ f : FaultUnit, let t : State := { s0 with faults := f }
          exec i s = .next (okay h (.sources (FaultSource.all.filter fun src =>
            x.getLsbD src.id && flagSet s0 src && conditionPersists s0 src)) t) ∧
          (∀ src, sourceState t src =
            if x.getLsbD src.id = true ∧ conditionPersists s0 src = false ∧ flagSet s0 src = true
            then { flag := false, axes := 0#8 } else sourceState s0 src) ∧
          f.escalation = (if FaultSource.all.any fun src => flagSet t src && (actionSet s0 src).delay
            then s0.faults.escalation else none) ∧
          f.first = (if FaultSource.all.any (flagSet t) then s0.faults.first else none) ∧
          f.safeStop = s0.faults.safeStop ∧ f.cause = s0.faults.cause ∧
          f.stopTimer = s0.faults.stopTimer ∧ f.estopActive = s0.faults.estopActive))

/-- RELEASE CLEAR: its three checks in order, FAULTS_SET with the sources; on acceptance the latch is clear and
the safe stop NORMAL, the cause kept, and nothing else changes. -/
def releaseClearReturnsToNormal : Prop :=
  ∀ (h : Header) (s s0 : State), taken (.releaseClear h) s s0 →
    let l := FaultSource.all.filter fun src => flagSet s0 src && (actionSet s0 src).safeStop
    judged h s0 (exec (.releaseClear h) s)
      [(s0.faults.estopActive = false, .estopActive), (s0.faults.safeStop ≠ .stopping, .stopInProgress)]
      ((l ≠ [] → exec (.releaseClear h) s = .next (queueReply h
          { refusal := some .faultsSet, omitted := 0, data := .sources l } s0)) ∧
       (l = [] → exec (.releaseClear h) s = .next (okay h .none
          { s0 with
            bus := { s0.bus with latch := false }
            faults := { s0.faults with safeStop := .normal } })))

/-- SET FAULT ACTIONS, SET FAULT TIMERS and FAULT CLEAR, from a master with the privilege: BAD_ARGUMENT first;
otherwise the action set or the two settings are replaced, a running escalation timer without a DELAY flag left
stops, and a clear takes the flags of the named sources whose condition does not persist: the E-STOP input active, the
sync state LOST, a drive in FAULT on a recorded axis, the master STALE, the lock state LOST. RELEASE CLEAR, from every
master: ESTOP_ACTIVE, STOP_IN_PROGRESS, FAULTS_SET with the sources; otherwise the latch is clear and the safe stop
NORMAL. That the checks come first in NORMAL with the latch clear as well, and that the sources stand in the order of
their ids in both replies, is the model's choice (log entry 29), and so is that RELEASE CLEAR leaves a running escalation
timer running (log entry 34). -/
def Obligations.FaultRequestsSetClearAndReturn : Prop :=
  sourcesAndConditions ∧ faultRequestsSetAndClear ∧ releaseClearReturnsToNormal

/-! ## Start-up, saving and restart -/

/-- A reset with a cause, under the levels of RESET and the supply it leaves: every block as its chapter says, every
port CLOSED with nothing to receive or to send, the configuration memory and, where it is kept, the preset store
standing. The cause is an earlier POWER_ON or LOW_SUPPLY that has not reached READY, else the reset's own. -/
def resetFrom (s : State) (c : ResetCause) (low supply keep : Bool) : State :=
  let u := s.startup
  let early := u.phase ≠ .ready ∧ (u.cause = .powerOn ∨ u.cause = .lowSupply)
  { State.reset with
    pending := s.pending
    memory := s.memory
    freeDraws := s.freeDraws
    faults := { FaultUnit.reset with estopActive := s.faults.estopActive }
    store := if keep then s.store else PresetStore.cleared
    startup :=
      { phase := if low ∨ supply then .inReset else .hold
        cause := if early then u.cause else c
        saveInterrupted := false, source := u.source, mode := u.mode, resetLow := low
        supplyLow := supply } }

/-- POWER_ON, LOW_SUPPLY, RESET_PIN and RESTART leave every block as its chapter says, keep the configuration memory
and, after RESET_PIN and RESTART, the preset store, empty every port, and record their cause unless an earlier
POWER_ON or LOW_SUPPLY has not reached READY; the part stays in reset while the supply is low or RESET is held.
RESET_RELEASE begins the power-up hold once neither holds. RESTART, from a master with the privilege, is refused
AXES_ENABLED or SAVING first. What stands of the source, the operating mode and the input levels is the model's
choice (log entries 5 and 18), and so are the built-in settings between the reset and READY (log entry 3). -/
def Obligations.ResetsLeaveEachBlockAtItsReset : Prop :=
  (∀ (dt : Nat) (s : State),
    let s1 := elapse dt s
    let u := s1.startup
    exec (.powerOn dt) s = .next (resetFrom s1 .powerOn u.resetLow false false) ∧
    exec (.lowSupply dt) s = .next (resetFrom s1 .lowSupply u.resetLow true false) ∧
    exec (.resetPin dt) s = .next (resetFrom s1 .resetPin true u.supplyLow true) ∧
    exec (.resetRelease dt) s = .next { s1 with startup := { u with
      resetLow := false
      phase := if u.phase = .inReset ∧ u.supplyLow = false then .hold else u.phase } }) ∧
  ∀ (h : Header) (s s0 : State), taken (.restart h) s s0 → actsAsSupervisor s0 h.link = true →
    judged h s0 (exec (.restart h) s)
      [(∀ a, AxisSet.has s0.settings.fitted a = true → isEnabled s0 a = false, .axesEnabled),
       (s0.save = none, .saving)]
      (exec (.restart h) s =
        .next (resetFrom s0 .restart s0.startup.resetLow s0.startup.supplyLow true))

/-- The state at READY before the notices and raises of READY are taken: the cache empty, the ports in use OPEN,
the load's findings recorded. -/
def readyWith (source : ConfigSource) (mark : Bool) (s : State) : State :=
  { s with
    cache := []
    startup := { s.startup with phase := .ready, source := source, saveInterrupted := mark }
    ports := PerMaster.ofFn fun m =>
      if m = .supervisor ∧ s.startup.mode = .standalone then s.ports.get m
      else { s.ports.get m with link := .opened } }

/-- HELLO on every link in use, then, with the E-STOP input active, the raise of ESTOP. -/
def readyActions (s : State) (extra : State → Emit) : Emit :=
  let hello := (linksInUse s).map fun m =>
    (⟨m, .hello s.startup.cause s.startup.saveInterrupted s.startup.source Config.partRevision⟩ : Post)
  let e := extra s
  let f := if e.state.faults.estopActive = true then raise .estop carriesNothing e.state
    else { state := e.state, posts := [] }
  { state := f.state, posts := hello ++ e.posts ++ f.posts }

/-- Every value of a settings section lies within its range (R171). -/
def settingsRanges (x : Settings) : Prop :=
  (∀ a, limitRanges (x.limits.get a)) ∧
  (∀ n : Fin 8, 2 ≤ axisCount x.zones[n].axes ∧ axisCount x.zones[n].axes ≤ 3 ∧
    (x.zones[n].enabled = true → ∀ a, AxisSet.has x.zones[n].axes a = true → AxisSet.has x.fitted a = true) ∧
    ∀ a, let b := x.zones[n].bounds.get a
      positionRange b.lo ∧ positionRange b.hi ∧ b.lo ≤ b.hi) ∧
  (∀ m, let v := x.views.get m
    (∀ a, let p := (x.profiles.get m).get a
      p.deadband ≤ 511 ∧ p.expo ≤ 256 ∧ p.gain ≤ 65535) ∧
    v.directory < 4 ∧ 1 ≤ v.length ∧ v.length ≤ 16 ∧ v.key < 16 ∧
    (x.staleLimits.get m = none → m = .supervisor) ∧ ∀ n, x.staleLimits.get m = some n → 5 ≤ n ∧ n ≤ 250) ∧
  250 ≤ x.period ∧ x.period ≤ 4000 ∧ 1 ≤ x.escalationDelay ∧ x.escalationDelay ≤ 1000 ∧
  1 ≤ x.stopTime ∧ x.stopTime ≤ 100

/-- Every value of a preset section lies within its range (R171), its tables in their canonical form. -/
def presetRanges (p : PresetStore) : Prop :=
  tableWf PresetRecord.cleared 256 p.records = true ∧ tableWf CueEntry.cleared 512 p.cues = true ∧
  tableWf BankEntry.cleared 64 p.banks = true ∧ (∀ e ∈ p.cues, e.2.record < 256) ∧
  (∀ e ∈ p.banks, (∀ n, e.2.target = .list n → n < 32) ∧
    ∀ b c, e.2.target = .run b c → b < 256 ∧ 1 ≤ c ∧ c ≤ 16) ∧
  ∀ e ∈ p.records, e.2.key < 16 ∧ ∀ b, e.2.body = some b →
    b.axes ≠ 0#8 ∧ 1 ≤ b.keyframes.length ∧ b.keyframes.length ≤ 8 ∧
    (∀ l, b.label = some l → l.length ≤ 12 ∧ ∀ o ∈ l, 32 ≤ o.toNat ∧ o.toNat ≤ 126) ∧
    ∀ k ∈ b.keyframes, 1 ≤ k.duration ∧ k.duration ≤ 60000 ∧
      ∀ a, (AxisSet.has b.axes a = true → ∃ v, k.targets.get a = some v ∧ positionRange v) ∧
        (AxisSet.has b.axes a = false → k.targets.get a = none)

/-- An image the load finds nothing wrong with: its marker is clear, its check matches, its tag and its length are
right, and every value of the sections the load reads lies within its range. The preset section is judged where it
is read, after POWER_ON and LOW_SUPPLY (log entry 19). -/
def goodImage (cold : Prop) (i : ConfigImage) : Prop :=
  i.marker = false ∧ i.checkMatches = true ∧ i.formatRight = true ∧ i.lengthRight = true ∧ i.valuesRead = true ∧
    settingsRanges i.settings ∧ (cold → presetRanges i.presets)

/-- The preset store an image gives: a label of no characters is an absent one (R44). -/
def storeOf (p : PresetStore) : PresetStore :=
  { p with records := p.records.map fun e => (e.1, { e.2 with
      body := e.2.body.map fun b => { b with label := if b.label = some [] then none else b.label } }) }

/-- POWER_UP_HOLD_END samples the MODE pin and begins the load; CONFIGURATION_LOAD ends it at READY: the
built-in defaults where the memory does not answer, the settings of a good image with its presets after
POWER_ON or LOW_SUPPLY, and the built-in defaults with CONFIG_INVALID for any other image, its record taken
before READY and its actions at READY. Out of their phase neither has an effect. What the load reads of an image is
the model's (log entry 4), that a preset section it does not take is not judged the model's choice (log entry 19),
and so is that a stale limit OFF makes SUPERVISOR FRESH at the load (log entry 26). -/
def Obligations.StartUpLoadsAndReachesReady : Prop :=
  ∀ (dt : Nat) (pin : OperatingMode) (found : MemoryAnswer) (s : State),
    let s1 := elapse dt s
    let u := s1.startup
    let x := exec (.configurationLoad dt found) s
    (u.phase = .hold →
      exec (.powerUpHoldEnd dt pin) s = .next { s1 with startup := { u with phase := .loading, mode := pin } }) ∧
    (u.phase ≠ .hold → exec (.powerUpHoldEnd dt pin) s = .next s1) ∧
    (u.phase ≠ .loading → x = .next s1) ∧
    (u.phase = .loading → found = .silent → x = .next (readyActions
      (readyWith .defaults false { s1 with settings := Settings.builtIn })
      (fun s => { state := s, posts := [] })).settle) ∧
    ∀ image, (found = .asHeld ∧ image = s1.memory) ∨ found = .holding image → u.phase = .loading →
      let s2 : State := { s1 with memory := image }
      let cold := u.cause = .powerOn ∨ u.cause = .lowSupply
      let j := s1.joysticks
      (goodImage cold image → x = .next (readyActions
        (readyWith .memory false
          { s2 with
            settings := image.settings
            store := if cold then storeOf image.presets else s1.store
            joysticks := if image.settings.staleLimits.get .supervisor = none
              then j.set .supervisor { j.get .supervisor with stale := .fresh } else j })
        (fun s => { state := s, posts := [] })).settle) ∧
      (¬ goodImage cold image →
        let s3 := raiseRecord .configInvalid carriesNothing { s2 with settings := Settings.builtIn }
        x = .next (readyActions (readyWith .invalid image.marker s3)
          (raiseActions .configInvalid carriesNothing (!anyFlag s2))).settle)

/-- SAVE STORE, from a master with the privilege, copies the settings unless a save is in flight; the marker
write sets the marker; a completed save leaves the copied settings and the store as a good image and tells its
requester; a failed one leaves the image as far as it got. That a failure in step 2 leaves the sections as they stood,
and what a failure in step 3 leaves beside the written sections, is the model's choice (log entry 9); what a failure
in step 4 leaves, the marker set or the check wrong, is free. -/
def Obligations.SavesWriteTheImage : Prop :=
  ∀ (h : Header) (dt : Nat) (s s0 : State),
    let s1 := elapse dt s
    let ended := fun (m : Master) (n : Notice) (image : ConfigImage) (k : Nat) =>
      placeNotices [⟨m, n⟩] { s1 with save := none, memory := image, freeDraws := s1.freeDraws + k }
    let marked : ConfigImage := { s1.memory with marker := true }
    (taken (.saveStore h) s s0 → actsAsSupervisor s0 h.link = true →
      judged h s0 (exec (.saveStore h) s) [(s0.save = none, .saving)]
        (exec (.saveStore h) s = .next (okay h .none
          { s0 with save := some { requester := h.link, copied := s0.settings } }))) ∧
    (s1.save = none → exec (.saveMarkerWritten dt) s = .next s1 ∧
      ∀ e, exec (.saveCompletion dt e) s = .next s1) ∧
    (∀ v, s1.save = some v →
      let written : ConfigImage := { marked with valuesRead := true, settings := v.copied, presets := s1.store }
      let good : ConfigImage :=
        { formatRight := true, lengthRight := true, checkMatches := true, marker := false
          valuesRead := true, settings := v.copied, presets := s1.store }
      exec (.saveMarkerWritten dt) s = .next { s1 with memory := marked } ∧
      exec (.saveCompletion dt .done) s = .next (ended v.requester .saveDone good 0) ∧
      ∀ why, let failed := fun n => exec (.saveCompletion dt (.failed n why)) s
        failed 1 = .next (ended v.requester (.saveFailed 1 why) s1.memory 0) ∧
        failed 2 = .next (ended v.requester (.saveFailed 2 why) marked 0) ∧
        failed 3 = .next (ended v.requester (.saveFailed 3 why) written 0) ∧
        ∃ image, (image = { good with marker := true } ∨ image = { good with checkMatches := false }) ∧
          failed 4 = .next (ended v.requester (.saveFailed 4 why) image 1))

/-- The refusal codes in the order of their numbers, 1 to 34 (11.7.6). -/
def refusalsInOrder : List RefusalCode :=
  [.badArgument, .badAxis, .notPermitted, .busRunning, .busStopped, .axisInUse, .outOfLimits, .notOwner,
   .viewOff, .rangeBank, .bankEmpty, .entryEmpty, .rangeEntry, .rangeRecord,
   .locked, .keyMismatch, .inUse, .saving, .recordFree, .full, .guarded,
   .emptyAxes, .faultStop, .cuePassed, .queueFull, .badTimecode, .unknownMove,
   .tcRunning, .slotMap, .axesEnabled, .moveActive, .estopActive, .stopInProgress, .faultsSet]

/-- The number of a per-axis outcome (11.7.6), and whether its rule gives it data (R17, R19, R20; under SEIZE by log
entry 25). -/
def outcomeRow : AxisOutcome → Nat × Bool
  | .busStopped => (5, false) | .outOfLimits => (7, false) | .notOwner => (8, false)
  | .granted => (64, false) | .owned => (65, false) | .transferred => (66, false) | .held _ => (67, true)
  | .waiting _ _ _ => (68, true) | .alreadyWaiting _ _ _ => (69, true)
  | .released => (70, false) | .passed _ => (71, true) | .yieldOn => (72, false) | .yieldOff => (73, false)
  | .seized => (74, false) | .waitWithdrawn => (75, false) | .notWaiting => (76, false)
  | .live => (77, false) | .hold => (78, false) | .trim => (79, false) | .handoff => (80, false)
  | .badMode => (81, false)
  | .enabled => (82, false) | .disabled => (83, false) | .driveNotReady => (84, false) | .latched => (85, false)

/-- The kind number of a notice (11.7.1). -/
def noticeRow : Notice → Nat
  | .hello .. => 129 | .granted .. => 130 | .taken .. => 131 | .waitExpired .. => 132 | .moveStarted .. => 133
  | .moveDone .. => 134 | .fault .. => 135 | .axisReport .. => 136 | .saveDone => 137 | .saveFailed .. => 138

/-- The octet of a blend mode (11.7.5). -/
def modeNumber : Mode → Nat
  | .hold => 0 | .live => 1 | .preset => 2 | .trim => 3 | .handoff => 4

/-- The octets of a frame sent, the FAULT line and the tally lines. A reply has kind 128, the request's tag, and a
payload of its code number, its omitted count and its data; a reply judged per axis has the code number of each
outcome in channel order, each followed by its data where its rule gives some, which are a free list (log entry 31);
a notice has its kind number and the tag 0; AXIS_REPORT
carries the frame number, the timecode counter and eight octets an axis; no payload is longer than 120 octets. A
payload whose layout the spec does not give is the free list within that length (log entry 31). ESTOP and STOP_OVERRUN
have the fixed members NOTICE and FAULT_LINE (log entry 28), every other source the set of the action table; the FAULT
line is asserted while a set flag belongs to a source with FAULT_LINE. A tally line is lit in STANDALONE mode while its
axis is fitted and belongs to a RUNNING, GATED or STOPPING move. -/
def Obligations.SentFramesAndLinesFollowTheState : Prop :=
  (∀ c, c ∈ refusalsInOrder) ∧
  (∀ (free : Nat → List Octet) (tag : Octet) (r : Reply),
    let f := LinkFrame.reply tag r
    let head := [BitVec.ofNat 8 (r.refusal.elim 0 fun c => refusalsInOrder.idxOf c + 1), BitVec.ofNat 8 r.omitted]
    f.kind = 128#8 ∧ f.tag = tag ∧
    (r.data = .none → f.payload free = head) ∧
    (∀ l : List AxisOutcome, r.data = .outcomes l → f.payload free = head ++
      (l.mapIdx fun i o => BitVec.ofNat 8 (outcomeRow o).1 ::
        if (outcomeRow o).2 then (free i).take 13 else []).flatten) ∧
    ((∀ l, r.data = .outcomes l → l.length ≤ 8) → (f.payload free).length ≤ 120) ∧
    ∃ rest, f.payload free = head ++ rest) ∧
  (∀ (free : Nat → List Octet) (n : Notice),
    let f := LinkFrame.notice n
    f.kind = BitVec.ofNat 8 (noticeRow n) ∧ f.tag = 0#8 ∧ (f.payload free).length ≤ 120 ∧
    (n = .saveDone → f.payload free = []) ∧
    ∀ k c (r : PerAxis AxisReport), n = .axisReport k c r →
      let time : List Octet := [c.hh, c.mm, c.ss, c.ff].map fun b => BitVec.ofNat 8 (16 * b.tens + b.ones)
      let position : Int → List Octet := fun v => let w := BitVec.ofInt 24 v
        [w.extractLsb' 16 8, w.extractLsb' 8 8, w.extractLsb' 0 8]
      (f.payload free).length = 72 ∧
      f.payload free =
        [k.extractLsb' 24 8, k.extractLsb' 16 8, k.extractLsb' 8 8, k.extractLsb' 0 8] ++ time ++
          Axis.all.flatMap fun a => position (r.get a).d1 ++ position (r.get a).feedback ++
            [BitVec.ofNat 8 (modeNumber (r.get a).mode), BitVec.ofNat 8 ((r.get a).owner.elim 0 masterNumber)]) ∧
  (∀ (s : State) (src : FaultSource),
    actionSet s src =
      if src = .estop ∨ src = .stopOverrun
      then { notice := true, hold := false, delay := false, safeStop := false, faultLine := true }
      else s.settings.actions[src.id]) ∧
  (∀ s : State, faultLine s = true ↔
    ∃ src, (sourceState s src).flag = true ∧ (actionSet s src).faultLine = true) ∧
  ∀ (s : State) (a : Axis), AxisSet.has (tally s) a = true ↔
    s.startup.mode = .standalone ∧ AxisSet.has s.settings.fitted a = true ∧
      ∃ m ∈ s.queue, m.state ≠ .queued ∧ AxisSet.has m.axes a = true

/-! ## Reset and the laws of the part -/

/-- The laws the part keeps. -/
def laws (s : State) : Prop :=
  linkLaw s ∧ cacheLaw s ∧ storeLaw s ∧ firstFaultLaw s ∧ enableLaw s ∧ safeStopLaw s ∧ authorityLaw s ∧
    queueLaw s ∧ ownershipLaw s ∧ timecodeLaw s ∧ busLaw s ∧ staleLaw s

/-- The action set of some of the five members (R144). -/
def acting (notice hold delay safeStop : Bool) : ActionSet :=
  { notice := notice, hold := hold, delay := delay, safeStop := safeStop, faultLine := false }

/-- The built-in defaults (R2, R4, R10, R33, R35, R48, R118, R130, R143, R148, R150). -/
def builtInDefaults (x : Settings) : Prop :=
  x.rate = .fps25 ∧ x.role = .frameMaster ∧ x.period = 1000 ∧ x.escalationDelay = 100 ∧ x.stopTime = 30 ∧
  (∀ a, AxisSet.has x.fitted a = true ∧
    x.limits.get a =
      { softMin := -8388608, softMax := 8388607, vmax := 1000, amax := 20, trimRange := 100000
        followingLimit := 0, followingPersistence := 10 } ∧
    (∀ n : Fin 16, x.slots[n] = .demand a ↔ n.val = 2 * a.number) ∧
    (∀ n : Fin 16, x.slots[n] = .feedback a ↔ n.val = 2 * a.number + 1) ∧
    ∀ m, (x.profiles.get m).get a = { deadband := 40, expo := 64, gain := 500, invert := false }) ∧
  (∀ n : Fin 8, x.zones[n].enabled = false ∧
    (∀ a, AxisSet.has x.zones[n].axes a = true ↔ a = .track ∨ a = .swing) ∧
    ∀ a, x.zones[n].bounds.get a = { lo := 0, hi := 0 }) ∧
  (∀ m, x.staleLimits.get m = some 50 ∧
    x.views.get m = { enabled := true, directory := masterNumber m - 1, length := 16, key := 0 }) ∧
  ∀ src : FaultSource, src ≠ .estop → src ≠ .stopOverrun → x.actions[src.id] =
    (match src with
      | .busSyncLost | .driveSilent | .driveFault => acting false false false true
      | .following => acting false true true false
      | .axisLimit => acting false false false false
      | _ => acting true false false false)

/-- The state right after reset: every link CLOSED and empty, no owner, no move and no cache entry, every
master STALE with no sample, every axis RELEASED in HOLD at 0, the latch set, every coupling entry disabled, TRACK to
SWING with gain and reference 0, every zone's armed flag clear, no flag, no recorded axis and no first fault, both fault
timers STOPPED, the safe stop RELEASED with cause RESET, the bus STOPPED with frame number, sequence and sync counter 0
and no captured sync period, the timecode STOPPED at 0 without reference, its period counter and good count 0 and no
captured period, the timebase at 0, the next move id 1, the store cleared and the built-in settings; and the laws of the
part hold there. The model's choices there are the timebase's counts (log entry 1), the power-up hold and the settings
before the load (3), the levels of the inputs (5), that no sync edge has been seen (17), the configuration source and the
operating mode (18), the pulse count, the slot words and the lines (21), the counter of free values (8), and that the
configuration memory holds no image that reads as good (4). -/
def Obligations.ResetStateAndItsLaws : Prop :=
  laws State.reset ∧
  (∀ m, State.reset.ports.get m =
      { link := .closed, badRun := 0, overrun := 0, rx := [], tx := [], noticesLost := false
        interval := none, countdown := 0, line := [] } ∧
    State.reset.joysticks.get m = { sample := PerAxis.fill 0, arrival := none, stale := .stale }) ∧
  (∀ a, State.reset.authority.get a = { owner := none, yielding := false, waiting := [] } ∧
    State.reset.demand.get a = { d1 := 0, d2 := 0 } ∧ State.reset.clamped.get a = false ∧
    State.reset.blend.get a =
      { mode := .hold, base := 0, trim := 0, weight := 0, step := 1, live := 0, preset := 0 } ∧
    State.reset.bus.drives.get a =
      { enable := .released, feedback := 0, state := .notReady, echo := .none, silent := 0
        following := 0, sent := none, sentBefore := none }) ∧
  State.reset.queue = [] ∧ State.reset.nextMoveId = 1 ∧ State.reset.cache = [] ∧
  State.reset.store = { records := [], cues := [], banks := [] } ∧ State.reset.save = none ∧
  State.reset.settings = Settings.builtIn ∧ builtInDefaults State.reset.settings ∧
  (∀ n : Fin 4, State.reset.couplings[n] =
    { enabled := false, source := .track, target := .swing, gain := 0, reference := 0 }) ∧
  (∀ n : Fin 8, State.reset.armed[n] = false) ∧
  State.reset.bus =
    { state := .stopped, frameNumber := 0#32, sequence := 0#8, syncCounter := 0, capturedSync := none, sync := .idle
      edgeSeen := false, syncPulses := 0, slotWords := Vector.replicate 16 none, latch := true
      drives := State.reset.bus.drives } ∧
  (∀ src, sourceState State.reset src = { flag := false, axes := 0#8 }) ∧
  State.reset.faults =
    { sources := State.reset.faults.sources, first := none, escalation := none, safeStop := .released
      cause := .reset, stopTimer := none, estopActive := false } ∧
  State.reset.timecode =
    { counter := ⟨⟨0, 0⟩, ⟨0, 0⟩, ⟨0, 0⟩, ⟨0, 0⟩⟩, run := .stopped, period := 0, captured := none
      lock := .noReference, good := 0 } ∧
  State.reset.timebase = { ms := 0, counts := 0 } ∧
  State.reset.startup =
    { phase := .hold, cause := .powerOn, saveInterrupted := false, source := .defaults, mode := .supervised
      resetLow := false, supplyLow := false } ∧
  State.reset.freeDraws = 0 ∧ State.reset.pending = [] ∧ (∀ s, imageGood s State.reset.memory = false)

/-- Every step keeps the bounds of the links, the law of the resolution cache and the canonical form of the
store. -/
def Obligations.StepsKeepLinksCacheAndStore : Prop :=
  ∀ s t : State, linkLaw s → cacheLaw s → storeLaw s → step s = .next t →
    linkLaw t ∧ cacheLaw t ∧ storeLaw t

/-- Every step keeps the laws of fault control: the first-fault record stands exactly while a flag is set, a
drive is ENABLED only while the E-STOP input is inactive and the latch clear, and the safe-stop state agrees
with the queue, the drives and the stop timer. -/
def Obligations.StepsKeepFaultLaws : Prop :=
  ∀ s t : State, firstFaultLaw s → enableLaw s → safeStopLaw s → step s = .next t →
    firstFaultLaw t ∧ enableLaw t ∧ safeStopLaw t

/-- Every step keeps the laws of authority and of the move queue, and with them that every axis of every move
is owned by the move's requester. -/
def Obligations.StepsKeepAuthorityAndQueue : Prop :=
  ∀ s t : State, authorityLaw s → queueLaw s → ownershipLaw s → step s = .next t →
    authorityLaw t ∧ queueLaw t ∧ ownershipLaw t

/-- Every step keeps the counter valid at its rate, and the counter, the ports and the bus at rest before READY; a
RUNNING bus keeps a slot map that serves every axis; and SUPERVISOR is FRESH from READY on while its stale limit is
OFF. That the configuration load brings the last about is the model's choice (log entry 26). -/
def Obligations.StepsKeepTimecodeBusAndStaleState : Prop :=
  ∀ s t : State, timecodeLaw s → busLaw s → staleLaw s → step s = .next t →
    timecodeLaw t ∧ busLaw t ∧ staleLaw t
end

