-- ==== Sys2Proof/Laws/State.lean ====
section
/-! SUPPORT. What each plain update of the state leaves in each field, and what it writes where the field is
written whole: true by unfolding, and used by simp so that no proof unfolds a record update. -/

namespace Sys2Proof.Machine

/-! ### setPort -/

@[simp] theorem State.setPort_pending (s : State) (m : Master) (p : Port) :
    (State.setPort s m p).pending = s.pending := rfl

@[simp] theorem State.setPort_timebase (s : State) (m : Master) (p : Port) :
    (State.setPort s m p).timebase = s.timebase := rfl

@[simp] theorem State.setPort_startup (s : State) (m : Master) (p : Port) :
    (State.setPort s m p).startup = s.startup := rfl

@[simp] theorem State.setPort_save (s : State) (m : Master) (p : Port) :
    (State.setPort s m p).save = s.save := rfl

@[simp] theorem State.setPort_memory (s : State) (m : Master) (p : Port) :
    (State.setPort s m p).memory = s.memory := rfl

@[simp] theorem State.setPort_settings (s : State) (m : Master) (p : Port) :
    (State.setPort s m p).settings = s.settings := rfl

@[simp] theorem State.setPort_store (s : State) (m : Master) (p : Port) :
    (State.setPort s m p).store = s.store := rfl

@[simp] theorem State.setPort_ports (s : State) (m : Master) (p : Port) :
    (State.setPort s m p).ports = s.ports.set m p := rfl

@[simp] theorem State.setPort_authority (s : State) (m : Master) (p : Port) :
    (State.setPort s m p).authority = s.authority := rfl

@[simp] theorem State.setPort_joysticks (s : State) (m : Master) (p : Port) :
    (State.setPort s m p).joysticks = s.joysticks := rfl

@[simp] theorem State.setPort_cache (s : State) (m : Master) (p : Port) :
    (State.setPort s m p).cache = s.cache := rfl

@[simp] theorem State.setPort_queue (s : State) (m : Master) (p : Port) :
    (State.setPort s m p).queue = s.queue := rfl

@[simp] theorem State.setPort_nextMoveId (s : State) (m : Master) (p : Port) :
    (State.setPort s m p).nextMoveId = s.nextMoveId := rfl

@[simp] theorem State.setPort_blend (s : State) (m : Master) (p : Port) :
    (State.setPort s m p).blend = s.blend := rfl

@[simp] theorem State.setPort_couplings (s : State) (m : Master) (p : Port) :
    (State.setPort s m p).couplings = s.couplings := rfl

@[simp] theorem State.setPort_demand (s : State) (m : Master) (p : Port) :
    (State.setPort s m p).demand = s.demand := rfl

@[simp] theorem State.setPort_clamped (s : State) (m : Master) (p : Port) :
    (State.setPort s m p).clamped = s.clamped := rfl

@[simp] theorem State.setPort_armed (s : State) (m : Master) (p : Port) :
    (State.setPort s m p).armed = s.armed := rfl

@[simp] theorem State.setPort_timecode (s : State) (m : Master) (p : Port) :
    (State.setPort s m p).timecode = s.timecode := rfl

@[simp] theorem State.setPort_bus (s : State) (m : Master) (p : Port) :
    (State.setPort s m p).bus = s.bus := rfl

@[simp] theorem State.setPort_faults (s : State) (m : Master) (p : Port) :
    (State.setPort s m p).faults = s.faults := rfl

@[simp] theorem State.setPort_freeDraws (s : State) (m : Master) (p : Port) :
    (State.setPort s m p).freeDraws = s.freeDraws := rfl

/-! ### setBlend -/

@[simp] theorem State.setBlend_pending (s : State) (a : Axis) (b : Blend) :
    (State.setBlend s a b).pending = s.pending := rfl

@[simp] theorem State.setBlend_timebase (s : State) (a : Axis) (b : Blend) :
    (State.setBlend s a b).timebase = s.timebase := rfl

@[simp] theorem State.setBlend_startup (s : State) (a : Axis) (b : Blend) :
    (State.setBlend s a b).startup = s.startup := rfl

@[simp] theorem State.setBlend_save (s : State) (a : Axis) (b : Blend) :
    (State.setBlend s a b).save = s.save := rfl

@[simp] theorem State.setBlend_memory (s : State) (a : Axis) (b : Blend) :
    (State.setBlend s a b).memory = s.memory := rfl

@[simp] theorem State.setBlend_settings (s : State) (a : Axis) (b : Blend) :
    (State.setBlend s a b).settings = s.settings := rfl

@[simp] theorem State.setBlend_store (s : State) (a : Axis) (b : Blend) :
    (State.setBlend s a b).store = s.store := rfl

@[simp] theorem State.setBlend_ports (s : State) (a : Axis) (b : Blend) :
    (State.setBlend s a b).ports = s.ports := rfl

@[simp] theorem State.setBlend_authority (s : State) (a : Axis) (b : Blend) :
    (State.setBlend s a b).authority = s.authority := rfl

@[simp] theorem State.setBlend_joysticks (s : State) (a : Axis) (b : Blend) :
    (State.setBlend s a b).joysticks = s.joysticks := rfl

@[simp] theorem State.setBlend_cache (s : State) (a : Axis) (b : Blend) :
    (State.setBlend s a b).cache = s.cache := rfl

@[simp] theorem State.setBlend_queue (s : State) (a : Axis) (b : Blend) :
    (State.setBlend s a b).queue = s.queue := rfl

@[simp] theorem State.setBlend_nextMoveId (s : State) (a : Axis) (b : Blend) :
    (State.setBlend s a b).nextMoveId = s.nextMoveId := rfl

@[simp] theorem State.setBlend_blend (s : State) (a : Axis) (b : Blend) :
    (State.setBlend s a b).blend = s.blend.set a b := rfl

@[simp] theorem State.setBlend_couplings (s : State) (a : Axis) (b : Blend) :
    (State.setBlend s a b).couplings = s.couplings := rfl

@[simp] theorem State.setBlend_demand (s : State) (a : Axis) (b : Blend) :
    (State.setBlend s a b).demand = s.demand := rfl

@[simp] theorem State.setBlend_clamped (s : State) (a : Axis) (b : Blend) :
    (State.setBlend s a b).clamped = s.clamped := rfl

@[simp] theorem State.setBlend_armed (s : State) (a : Axis) (b : Blend) :
    (State.setBlend s a b).armed = s.armed := rfl

@[simp] theorem State.setBlend_timecode (s : State) (a : Axis) (b : Blend) :
    (State.setBlend s a b).timecode = s.timecode := rfl

@[simp] theorem State.setBlend_bus (s : State) (a : Axis) (b : Blend) :
    (State.setBlend s a b).bus = s.bus := rfl

@[simp] theorem State.setBlend_faults (s : State) (a : Axis) (b : Blend) :
    (State.setBlend s a b).faults = s.faults := rfl

@[simp] theorem State.setBlend_freeDraws (s : State) (a : Axis) (b : Blend) :
    (State.setBlend s a b).freeDraws = s.freeDraws := rfl

/-! ### setJoystick -/

@[simp] theorem State.setJoystick_pending (s : State) (m : Master) (j : Joystick) :
    (State.setJoystick s m j).pending = s.pending := rfl

@[simp] theorem State.setJoystick_timebase (s : State) (m : Master) (j : Joystick) :
    (State.setJoystick s m j).timebase = s.timebase := rfl

@[simp] theorem State.setJoystick_startup (s : State) (m : Master) (j : Joystick) :
    (State.setJoystick s m j).startup = s.startup := rfl

@[simp] theorem State.setJoystick_save (s : State) (m : Master) (j : Joystick) :
    (State.setJoystick s m j).save = s.save := rfl

@[simp] theorem State.setJoystick_memory (s : State) (m : Master) (j : Joystick) :
    (State.setJoystick s m j).memory = s.memory := rfl

@[simp] theorem State.setJoystick_settings (s : State) (m : Master) (j : Joystick) :
    (State.setJoystick s m j).settings = s.settings := rfl

@[simp] theorem State.setJoystick_store (s : State) (m : Master) (j : Joystick) :
    (State.setJoystick s m j).store = s.store := rfl

@[simp] theorem State.setJoystick_ports (s : State) (m : Master) (j : Joystick) :
    (State.setJoystick s m j).ports = s.ports := rfl

@[simp] theorem State.setJoystick_authority (s : State) (m : Master) (j : Joystick) :
    (State.setJoystick s m j).authority = s.authority := rfl

@[simp] theorem State.setJoystick_joysticks (s : State) (m : Master) (j : Joystick) :
    (State.setJoystick s m j).joysticks = s.joysticks.set m j := rfl

@[simp] theorem State.setJoystick_cache (s : State) (m : Master) (j : Joystick) :
    (State.setJoystick s m j).cache = s.cache := rfl

@[simp] theorem State.setJoystick_queue (s : State) (m : Master) (j : Joystick) :
    (State.setJoystick s m j).queue = s.queue := rfl

@[simp] theorem State.setJoystick_nextMoveId (s : State) (m : Master) (j : Joystick) :
    (State.setJoystick s m j).nextMoveId = s.nextMoveId := rfl

@[simp] theorem State.setJoystick_blend (s : State) (m : Master) (j : Joystick) :
    (State.setJoystick s m j).blend = s.blend := rfl

@[simp] theorem State.setJoystick_couplings (s : State) (m : Master) (j : Joystick) :
    (State.setJoystick s m j).couplings = s.couplings := rfl

@[simp] theorem State.setJoystick_demand (s : State) (m : Master) (j : Joystick) :
    (State.setJoystick s m j).demand = s.demand := rfl

@[simp] theorem State.setJoystick_clamped (s : State) (m : Master) (j : Joystick) :
    (State.setJoystick s m j).clamped = s.clamped := rfl

@[simp] theorem State.setJoystick_armed (s : State) (m : Master) (j : Joystick) :
    (State.setJoystick s m j).armed = s.armed := rfl

@[simp] theorem State.setJoystick_timecode (s : State) (m : Master) (j : Joystick) :
    (State.setJoystick s m j).timecode = s.timecode := rfl

@[simp] theorem State.setJoystick_bus (s : State) (m : Master) (j : Joystick) :
    (State.setJoystick s m j).bus = s.bus := rfl

@[simp] theorem State.setJoystick_faults (s : State) (m : Master) (j : Joystick) :
    (State.setJoystick s m j).faults = s.faults := rfl

@[simp] theorem State.setJoystick_freeDraws (s : State) (m : Master) (j : Joystick) :
    (State.setJoystick s m j).freeDraws = s.freeDraws := rfl

/-! ### setCache -/

@[simp] theorem State.setCache_pending (s : State) (c : List CacheEntry) :
    (State.setCache s c).pending = s.pending := rfl

@[simp] theorem State.setCache_timebase (s : State) (c : List CacheEntry) :
    (State.setCache s c).timebase = s.timebase := rfl

@[simp] theorem State.setCache_startup (s : State) (c : List CacheEntry) :
    (State.setCache s c).startup = s.startup := rfl

@[simp] theorem State.setCache_save (s : State) (c : List CacheEntry) :
    (State.setCache s c).save = s.save := rfl

@[simp] theorem State.setCache_memory (s : State) (c : List CacheEntry) :
    (State.setCache s c).memory = s.memory := rfl

@[simp] theorem State.setCache_settings (s : State) (c : List CacheEntry) :
    (State.setCache s c).settings = s.settings := rfl

@[simp] theorem State.setCache_store (s : State) (c : List CacheEntry) :
    (State.setCache s c).store = s.store := rfl

@[simp] theorem State.setCache_ports (s : State) (c : List CacheEntry) :
    (State.setCache s c).ports = s.ports := rfl

@[simp] theorem State.setCache_authority (s : State) (c : List CacheEntry) :
    (State.setCache s c).authority = s.authority := rfl

@[simp] theorem State.setCache_joysticks (s : State) (c : List CacheEntry) :
    (State.setCache s c).joysticks = s.joysticks := rfl

@[simp] theorem State.setCache_cache (s : State) (c : List CacheEntry) :
    (State.setCache s c).cache = c := rfl

@[simp] theorem State.setCache_queue (s : State) (c : List CacheEntry) :
    (State.setCache s c).queue = s.queue := rfl

@[simp] theorem State.setCache_nextMoveId (s : State) (c : List CacheEntry) :
    (State.setCache s c).nextMoveId = s.nextMoveId := rfl

@[simp] theorem State.setCache_blend (s : State) (c : List CacheEntry) :
    (State.setCache s c).blend = s.blend := rfl

@[simp] theorem State.setCache_couplings (s : State) (c : List CacheEntry) :
    (State.setCache s c).couplings = s.couplings := rfl

@[simp] theorem State.setCache_demand (s : State) (c : List CacheEntry) :
    (State.setCache s c).demand = s.demand := rfl

@[simp] theorem State.setCache_clamped (s : State) (c : List CacheEntry) :
    (State.setCache s c).clamped = s.clamped := rfl

@[simp] theorem State.setCache_armed (s : State) (c : List CacheEntry) :
    (State.setCache s c).armed = s.armed := rfl

@[simp] theorem State.setCache_timecode (s : State) (c : List CacheEntry) :
    (State.setCache s c).timecode = s.timecode := rfl

@[simp] theorem State.setCache_bus (s : State) (c : List CacheEntry) :
    (State.setCache s c).bus = s.bus := rfl

@[simp] theorem State.setCache_faults (s : State) (c : List CacheEntry) :
    (State.setCache s c).faults = s.faults := rfl

@[simp] theorem State.setCache_freeDraws (s : State) (c : List CacheEntry) :
    (State.setCache s c).freeDraws = s.freeDraws := rfl

/-! ### setRecord -/

@[simp] theorem State.setRecord_pending (s : State) (n : Nat) (r : PresetRecord) :
    (State.setRecord s n r).pending = s.pending := rfl

@[simp] theorem State.setRecord_timebase (s : State) (n : Nat) (r : PresetRecord) :
    (State.setRecord s n r).timebase = s.timebase := rfl

@[simp] theorem State.setRecord_startup (s : State) (n : Nat) (r : PresetRecord) :
    (State.setRecord s n r).startup = s.startup := rfl

@[simp] theorem State.setRecord_save (s : State) (n : Nat) (r : PresetRecord) :
    (State.setRecord s n r).save = s.save := rfl

@[simp] theorem State.setRecord_memory (s : State) (n : Nat) (r : PresetRecord) :
    (State.setRecord s n r).memory = s.memory := rfl

@[simp] theorem State.setRecord_settings (s : State) (n : Nat) (r : PresetRecord) :
    (State.setRecord s n r).settings = s.settings := rfl

@[simp] theorem State.setRecord_ports (s : State) (n : Nat) (r : PresetRecord) :
    (State.setRecord s n r).ports = s.ports := rfl

@[simp] theorem State.setRecord_authority (s : State) (n : Nat) (r : PresetRecord) :
    (State.setRecord s n r).authority = s.authority := rfl

@[simp] theorem State.setRecord_joysticks (s : State) (n : Nat) (r : PresetRecord) :
    (State.setRecord s n r).joysticks = s.joysticks := rfl

@[simp] theorem State.setRecord_cache (s : State) (n : Nat) (r : PresetRecord) :
    (State.setRecord s n r).cache = s.cache := rfl

@[simp] theorem State.setRecord_queue (s : State) (n : Nat) (r : PresetRecord) :
    (State.setRecord s n r).queue = s.queue := rfl

@[simp] theorem State.setRecord_nextMoveId (s : State) (n : Nat) (r : PresetRecord) :
    (State.setRecord s n r).nextMoveId = s.nextMoveId := rfl

@[simp] theorem State.setRecord_blend (s : State) (n : Nat) (r : PresetRecord) :
    (State.setRecord s n r).blend = s.blend := rfl

@[simp] theorem State.setRecord_couplings (s : State) (n : Nat) (r : PresetRecord) :
    (State.setRecord s n r).couplings = s.couplings := rfl

@[simp] theorem State.setRecord_demand (s : State) (n : Nat) (r : PresetRecord) :
    (State.setRecord s n r).demand = s.demand := rfl

@[simp] theorem State.setRecord_clamped (s : State) (n : Nat) (r : PresetRecord) :
    (State.setRecord s n r).clamped = s.clamped := rfl

@[simp] theorem State.setRecord_armed (s : State) (n : Nat) (r : PresetRecord) :
    (State.setRecord s n r).armed = s.armed := rfl

@[simp] theorem State.setRecord_timecode (s : State) (n : Nat) (r : PresetRecord) :
    (State.setRecord s n r).timecode = s.timecode := rfl

@[simp] theorem State.setRecord_bus (s : State) (n : Nat) (r : PresetRecord) :
    (State.setRecord s n r).bus = s.bus := rfl

@[simp] theorem State.setRecord_faults (s : State) (n : Nat) (r : PresetRecord) :
    (State.setRecord s n r).faults = s.faults := rfl

@[simp] theorem State.setRecord_freeDraws (s : State) (n : Nat) (r : PresetRecord) :
    (State.setRecord s n r).freeDraws = s.freeDraws := rfl

/-! ### setCue -/

@[simp] theorem State.setCue_pending (s : State) (l p : Nat) (e : CueEntry) :
    (State.setCue s l p e).pending = s.pending := rfl

@[simp] theorem State.setCue_timebase (s : State) (l p : Nat) (e : CueEntry) :
    (State.setCue s l p e).timebase = s.timebase := rfl

@[simp] theorem State.setCue_startup (s : State) (l p : Nat) (e : CueEntry) :
    (State.setCue s l p e).startup = s.startup := rfl

@[simp] theorem State.setCue_save (s : State) (l p : Nat) (e : CueEntry) :
    (State.setCue s l p e).save = s.save := rfl

@[simp] theorem State.setCue_memory (s : State) (l p : Nat) (e : CueEntry) :
    (State.setCue s l p e).memory = s.memory := rfl

@[simp] theorem State.setCue_settings (s : State) (l p : Nat) (e : CueEntry) :
    (State.setCue s l p e).settings = s.settings := rfl

@[simp] theorem State.setCue_ports (s : State) (l p : Nat) (e : CueEntry) :
    (State.setCue s l p e).ports = s.ports := rfl

@[simp] theorem State.setCue_authority (s : State) (l p : Nat) (e : CueEntry) :
    (State.setCue s l p e).authority = s.authority := rfl

@[simp] theorem State.setCue_joysticks (s : State) (l p : Nat) (e : CueEntry) :
    (State.setCue s l p e).joysticks = s.joysticks := rfl

@[simp] theorem State.setCue_cache (s : State) (l p : Nat) (e : CueEntry) :
    (State.setCue s l p e).cache = s.cache := rfl

@[simp] theorem State.setCue_queue (s : State) (l p : Nat) (e : CueEntry) :
    (State.setCue s l p e).queue = s.queue := rfl

@[simp] theorem State.setCue_nextMoveId (s : State) (l p : Nat) (e : CueEntry) :
    (State.setCue s l p e).nextMoveId = s.nextMoveId := rfl

@[simp] theorem State.setCue_blend (s : State) (l p : Nat) (e : CueEntry) :
    (State.setCue s l p e).blend = s.blend := rfl

@[simp] theorem State.setCue_couplings (s : State) (l p : Nat) (e : CueEntry) :
    (State.setCue s l p e).couplings = s.couplings := rfl

@[simp] theorem State.setCue_demand (s : State) (l p : Nat) (e : CueEntry) :
    (State.setCue s l p e).demand = s.demand := rfl

@[simp] theorem State.setCue_clamped (s : State) (l p : Nat) (e : CueEntry) :
    (State.setCue s l p e).clamped = s.clamped := rfl

@[simp] theorem State.setCue_armed (s : State) (l p : Nat) (e : CueEntry) :
    (State.setCue s l p e).armed = s.armed := rfl

@[simp] theorem State.setCue_timecode (s : State) (l p : Nat) (e : CueEntry) :
    (State.setCue s l p e).timecode = s.timecode := rfl

@[simp] theorem State.setCue_bus (s : State) (l p : Nat) (e : CueEntry) :
    (State.setCue s l p e).bus = s.bus := rfl

@[simp] theorem State.setCue_faults (s : State) (l p : Nat) (e : CueEntry) :
    (State.setCue s l p e).faults = s.faults := rfl

@[simp] theorem State.setCue_freeDraws (s : State) (l p : Nat) (e : CueEntry) :
    (State.setCue s l p e).freeDraws = s.freeDraws := rfl

/-! ### setBank -/

@[simp] theorem State.setBank_pending (s : State) (d b : Nat) (e : BankEntry) :
    (State.setBank s d b e).pending = s.pending := rfl

@[simp] theorem State.setBank_timebase (s : State) (d b : Nat) (e : BankEntry) :
    (State.setBank s d b e).timebase = s.timebase := rfl

@[simp] theorem State.setBank_startup (s : State) (d b : Nat) (e : BankEntry) :
    (State.setBank s d b e).startup = s.startup := rfl

@[simp] theorem State.setBank_save (s : State) (d b : Nat) (e : BankEntry) :
    (State.setBank s d b e).save = s.save := rfl

@[simp] theorem State.setBank_memory (s : State) (d b : Nat) (e : BankEntry) :
    (State.setBank s d b e).memory = s.memory := rfl

@[simp] theorem State.setBank_settings (s : State) (d b : Nat) (e : BankEntry) :
    (State.setBank s d b e).settings = s.settings := rfl

@[simp] theorem State.setBank_ports (s : State) (d b : Nat) (e : BankEntry) :
    (State.setBank s d b e).ports = s.ports := rfl

@[simp] theorem State.setBank_authority (s : State) (d b : Nat) (e : BankEntry) :
    (State.setBank s d b e).authority = s.authority := rfl

@[simp] theorem State.setBank_joysticks (s : State) (d b : Nat) (e : BankEntry) :
    (State.setBank s d b e).joysticks = s.joysticks := rfl

@[simp] theorem State.setBank_cache (s : State) (d b : Nat) (e : BankEntry) :
    (State.setBank s d b e).cache = s.cache := rfl

@[simp] theorem State.setBank_queue (s : State) (d b : Nat) (e : BankEntry) :
    (State.setBank s d b e).queue = s.queue := rfl

@[simp] theorem State.setBank_nextMoveId (s : State) (d b : Nat) (e : BankEntry) :
    (State.setBank s d b e).nextMoveId = s.nextMoveId := rfl

@[simp] theorem State.setBank_blend (s : State) (d b : Nat) (e : BankEntry) :
    (State.setBank s d b e).blend = s.blend := rfl

@[simp] theorem State.setBank_couplings (s : State) (d b : Nat) (e : BankEntry) :
    (State.setBank s d b e).couplings = s.couplings := rfl

@[simp] theorem State.setBank_demand (s : State) (d b : Nat) (e : BankEntry) :
    (State.setBank s d b e).demand = s.demand := rfl

@[simp] theorem State.setBank_clamped (s : State) (d b : Nat) (e : BankEntry) :
    (State.setBank s d b e).clamped = s.clamped := rfl

@[simp] theorem State.setBank_armed (s : State) (d b : Nat) (e : BankEntry) :
    (State.setBank s d b e).armed = s.armed := rfl

@[simp] theorem State.setBank_timecode (s : State) (d b : Nat) (e : BankEntry) :
    (State.setBank s d b e).timecode = s.timecode := rfl

@[simp] theorem State.setBank_bus (s : State) (d b : Nat) (e : BankEntry) :
    (State.setBank s d b e).bus = s.bus := rfl

@[simp] theorem State.setBank_faults (s : State) (d b : Nat) (e : BankEntry) :
    (State.setBank s d b e).faults = s.faults := rfl

@[simp] theorem State.setBank_freeDraws (s : State) (d b : Nat) (e : BankEntry) :
    (State.setBank s d b e).freeDraws = s.freeDraws := rfl

/-! ### setView -/

@[simp] theorem State.setView_pending (s : State) (m : Master) (v : View) :
    (State.setView s m v).pending = s.pending := rfl

@[simp] theorem State.setView_timebase (s : State) (m : Master) (v : View) :
    (State.setView s m v).timebase = s.timebase := rfl

@[simp] theorem State.setView_startup (s : State) (m : Master) (v : View) :
    (State.setView s m v).startup = s.startup := rfl

@[simp] theorem State.setView_save (s : State) (m : Master) (v : View) :
    (State.setView s m v).save = s.save := rfl

@[simp] theorem State.setView_memory (s : State) (m : Master) (v : View) :
    (State.setView s m v).memory = s.memory := rfl

@[simp] theorem State.setView_store (s : State) (m : Master) (v : View) :
    (State.setView s m v).store = s.store := rfl

@[simp] theorem State.setView_ports (s : State) (m : Master) (v : View) :
    (State.setView s m v).ports = s.ports := rfl

@[simp] theorem State.setView_authority (s : State) (m : Master) (v : View) :
    (State.setView s m v).authority = s.authority := rfl

@[simp] theorem State.setView_joysticks (s : State) (m : Master) (v : View) :
    (State.setView s m v).joysticks = s.joysticks := rfl

@[simp] theorem State.setView_cache (s : State) (m : Master) (v : View) :
    (State.setView s m v).cache = s.cache := rfl

@[simp] theorem State.setView_queue (s : State) (m : Master) (v : View) :
    (State.setView s m v).queue = s.queue := rfl

@[simp] theorem State.setView_nextMoveId (s : State) (m : Master) (v : View) :
    (State.setView s m v).nextMoveId = s.nextMoveId := rfl

@[simp] theorem State.setView_blend (s : State) (m : Master) (v : View) :
    (State.setView s m v).blend = s.blend := rfl

@[simp] theorem State.setView_couplings (s : State) (m : Master) (v : View) :
    (State.setView s m v).couplings = s.couplings := rfl

@[simp] theorem State.setView_demand (s : State) (m : Master) (v : View) :
    (State.setView s m v).demand = s.demand := rfl

@[simp] theorem State.setView_clamped (s : State) (m : Master) (v : View) :
    (State.setView s m v).clamped = s.clamped := rfl

@[simp] theorem State.setView_armed (s : State) (m : Master) (v : View) :
    (State.setView s m v).armed = s.armed := rfl

@[simp] theorem State.setView_timecode (s : State) (m : Master) (v : View) :
    (State.setView s m v).timecode = s.timecode := rfl

@[simp] theorem State.setView_bus (s : State) (m : Master) (v : View) :
    (State.setView s m v).bus = s.bus := rfl

@[simp] theorem State.setView_faults (s : State) (m : Master) (v : View) :
    (State.setView s m v).faults = s.faults := rfl

@[simp] theorem State.setView_freeDraws (s : State) (m : Master) (v : View) :
    (State.setView s m v).freeDraws = s.freeDraws := rfl

/-! ### setCouplingEntry -/

@[simp] theorem State.setCouplingEntry_pending (s : State) (n : Fin 4) (c : Coupling) :
    (State.setCouplingEntry s n c).pending = s.pending := rfl

@[simp] theorem State.setCouplingEntry_timebase (s : State) (n : Fin 4) (c : Coupling) :
    (State.setCouplingEntry s n c).timebase = s.timebase := rfl

@[simp] theorem State.setCouplingEntry_startup (s : State) (n : Fin 4) (c : Coupling) :
    (State.setCouplingEntry s n c).startup = s.startup := rfl

@[simp] theorem State.setCouplingEntry_save (s : State) (n : Fin 4) (c : Coupling) :
    (State.setCouplingEntry s n c).save = s.save := rfl

@[simp] theorem State.setCouplingEntry_memory (s : State) (n : Fin 4) (c : Coupling) :
    (State.setCouplingEntry s n c).memory = s.memory := rfl

@[simp] theorem State.setCouplingEntry_settings (s : State) (n : Fin 4) (c : Coupling) :
    (State.setCouplingEntry s n c).settings = s.settings := rfl

@[simp] theorem State.setCouplingEntry_store (s : State) (n : Fin 4) (c : Coupling) :
    (State.setCouplingEntry s n c).store = s.store := rfl

@[simp] theorem State.setCouplingEntry_ports (s : State) (n : Fin 4) (c : Coupling) :
    (State.setCouplingEntry s n c).ports = s.ports := rfl

@[simp] theorem State.setCouplingEntry_authority (s : State) (n : Fin 4) (c : Coupling) :
    (State.setCouplingEntry s n c).authority = s.authority := rfl

@[simp] theorem State.setCouplingEntry_joysticks (s : State) (n : Fin 4) (c : Coupling) :
    (State.setCouplingEntry s n c).joysticks = s.joysticks := rfl

@[simp] theorem State.setCouplingEntry_cache (s : State) (n : Fin 4) (c : Coupling) :
    (State.setCouplingEntry s n c).cache = s.cache := rfl

@[simp] theorem State.setCouplingEntry_queue (s : State) (n : Fin 4) (c : Coupling) :
    (State.setCouplingEntry s n c).queue = s.queue := rfl

@[simp] theorem State.setCouplingEntry_nextMoveId (s : State) (n : Fin 4) (c : Coupling) :
    (State.setCouplingEntry s n c).nextMoveId = s.nextMoveId := rfl

@[simp] theorem State.setCouplingEntry_blend (s : State) (n : Fin 4) (c : Coupling) :
    (State.setCouplingEntry s n c).blend = s.blend := rfl

@[simp] theorem State.setCouplingEntry_couplings (s : State) (n : Fin 4) (c : Coupling) :
    (State.setCouplingEntry s n c).couplings = s.couplings.set n c := rfl

@[simp] theorem State.setCouplingEntry_demand (s : State) (n : Fin 4) (c : Coupling) :
    (State.setCouplingEntry s n c).demand = s.demand := rfl

@[simp] theorem State.setCouplingEntry_clamped (s : State) (n : Fin 4) (c : Coupling) :
    (State.setCouplingEntry s n c).clamped = s.clamped := rfl

@[simp] theorem State.setCouplingEntry_armed (s : State) (n : Fin 4) (c : Coupling) :
    (State.setCouplingEntry s n c).armed = s.armed := rfl

@[simp] theorem State.setCouplingEntry_timecode (s : State) (n : Fin 4) (c : Coupling) :
    (State.setCouplingEntry s n c).timecode = s.timecode := rfl

@[simp] theorem State.setCouplingEntry_bus (s : State) (n : Fin 4) (c : Coupling) :
    (State.setCouplingEntry s n c).bus = s.bus := rfl

@[simp] theorem State.setCouplingEntry_faults (s : State) (n : Fin 4) (c : Coupling) :
    (State.setCouplingEntry s n c).faults = s.faults := rfl

@[simp] theorem State.setCouplingEntry_freeDraws (s : State) (n : Fin 4) (c : Coupling) :
    (State.setCouplingEntry s n c).freeDraws = s.freeDraws := rfl

/-! ### setSource -/

@[simp] theorem State.setSource_pending (s : State) (src : FaultSource) (v : SourceState) :
    (State.setSource s src v).pending = s.pending := rfl

@[simp] theorem State.setSource_timebase (s : State) (src : FaultSource) (v : SourceState) :
    (State.setSource s src v).timebase = s.timebase := rfl

@[simp] theorem State.setSource_startup (s : State) (src : FaultSource) (v : SourceState) :
    (State.setSource s src v).startup = s.startup := rfl

@[simp] theorem State.setSource_save (s : State) (src : FaultSource) (v : SourceState) :
    (State.setSource s src v).save = s.save := rfl

@[simp] theorem State.setSource_memory (s : State) (src : FaultSource) (v : SourceState) :
    (State.setSource s src v).memory = s.memory := rfl

@[simp] theorem State.setSource_settings (s : State) (src : FaultSource) (v : SourceState) :
    (State.setSource s src v).settings = s.settings := rfl

@[simp] theorem State.setSource_store (s : State) (src : FaultSource) (v : SourceState) :
    (State.setSource s src v).store = s.store := rfl

@[simp] theorem State.setSource_ports (s : State) (src : FaultSource) (v : SourceState) :
    (State.setSource s src v).ports = s.ports := rfl

@[simp] theorem State.setSource_authority (s : State) (src : FaultSource) (v : SourceState) :
    (State.setSource s src v).authority = s.authority := rfl

@[simp] theorem State.setSource_joysticks (s : State) (src : FaultSource) (v : SourceState) :
    (State.setSource s src v).joysticks = s.joysticks := rfl

@[simp] theorem State.setSource_cache (s : State) (src : FaultSource) (v : SourceState) :
    (State.setSource s src v).cache = s.cache := rfl

@[simp] theorem State.setSource_queue (s : State) (src : FaultSource) (v : SourceState) :
    (State.setSource s src v).queue = s.queue := rfl

@[simp] theorem State.setSource_nextMoveId (s : State) (src : FaultSource) (v : SourceState) :
    (State.setSource s src v).nextMoveId = s.nextMoveId := rfl

@[simp] theorem State.setSource_blend (s : State) (src : FaultSource) (v : SourceState) :
    (State.setSource s src v).blend = s.blend := rfl

@[simp] theorem State.setSource_couplings (s : State) (src : FaultSource) (v : SourceState) :
    (State.setSource s src v).couplings = s.couplings := rfl

@[simp] theorem State.setSource_demand (s : State) (src : FaultSource) (v : SourceState) :
    (State.setSource s src v).demand = s.demand := rfl

@[simp] theorem State.setSource_clamped (s : State) (src : FaultSource) (v : SourceState) :
    (State.setSource s src v).clamped = s.clamped := rfl

@[simp] theorem State.setSource_armed (s : State) (src : FaultSource) (v : SourceState) :
    (State.setSource s src v).armed = s.armed := rfl

@[simp] theorem State.setSource_timecode (s : State) (src : FaultSource) (v : SourceState) :
    (State.setSource s src v).timecode = s.timecode := rfl

@[simp] theorem State.setSource_bus (s : State) (src : FaultSource) (v : SourceState) :
    (State.setSource s src v).bus = s.bus := rfl

@[simp] theorem State.setSource_freeDraws (s : State) (src : FaultSource) (v : SourceState) :
    (State.setSource s src v).freeDraws = s.freeDraws := rfl

/-! ### setClamped -/

@[simp] theorem setClamped_pending (s : State) (a : Axis) (b : Bool) :
    (setClamped a b s).pending = s.pending := rfl

@[simp] theorem setClamped_timebase (s : State) (a : Axis) (b : Bool) :
    (setClamped a b s).timebase = s.timebase := rfl

@[simp] theorem setClamped_startup (s : State) (a : Axis) (b : Bool) :
    (setClamped a b s).startup = s.startup := rfl

@[simp] theorem setClamped_save (s : State) (a : Axis) (b : Bool) :
    (setClamped a b s).save = s.save := rfl

@[simp] theorem setClamped_memory (s : State) (a : Axis) (b : Bool) :
    (setClamped a b s).memory = s.memory := rfl

@[simp] theorem setClamped_settings (s : State) (a : Axis) (b : Bool) :
    (setClamped a b s).settings = s.settings := rfl

@[simp] theorem setClamped_store (s : State) (a : Axis) (b : Bool) :
    (setClamped a b s).store = s.store := rfl

@[simp] theorem setClamped_ports (s : State) (a : Axis) (b : Bool) :
    (setClamped a b s).ports = s.ports := rfl

@[simp] theorem setClamped_authority (s : State) (a : Axis) (b : Bool) :
    (setClamped a b s).authority = s.authority := rfl

@[simp] theorem setClamped_joysticks (s : State) (a : Axis) (b : Bool) :
    (setClamped a b s).joysticks = s.joysticks := rfl

@[simp] theorem setClamped_cache (s : State) (a : Axis) (b : Bool) :
    (setClamped a b s).cache = s.cache := rfl

@[simp] theorem setClamped_queue (s : State) (a : Axis) (b : Bool) :
    (setClamped a b s).queue = s.queue := rfl

@[simp] theorem setClamped_nextMoveId (s : State) (a : Axis) (b : Bool) :
    (setClamped a b s).nextMoveId = s.nextMoveId := rfl

@[simp] theorem setClamped_blend (s : State) (a : Axis) (b : Bool) :
    (setClamped a b s).blend = s.blend := rfl

@[simp] theorem setClamped_couplings (s : State) (a : Axis) (b : Bool) :
    (setClamped a b s).couplings = s.couplings := rfl

@[simp] theorem setClamped_demand (s : State) (a : Axis) (b : Bool) :
    (setClamped a b s).demand = s.demand := rfl

@[simp] theorem setClamped_clamped (s : State) (a : Axis) (b : Bool) :
    (setClamped a b s).clamped = s.clamped.set a b := rfl

@[simp] theorem setClamped_armed (s : State) (a : Axis) (b : Bool) :
    (setClamped a b s).armed = s.armed := rfl

@[simp] theorem setClamped_timecode (s : State) (a : Axis) (b : Bool) :
    (setClamped a b s).timecode = s.timecode := rfl

@[simp] theorem setClamped_bus (s : State) (a : Axis) (b : Bool) :
    (setClamped a b s).bus = s.bus := rfl

@[simp] theorem setClamped_faults (s : State) (a : Axis) (b : Bool) :
    (setClamped a b s).faults = s.faults := rfl

@[simp] theorem setClamped_freeDraws (s : State) (a : Axis) (b : Bool) :
    (setClamped a b s).freeDraws = s.freeDraws := rfl

/-! ### setCounter -/

@[simp] theorem setCounter_pending (s : State) (v : Timecode) :
    (setCounter v s).pending = s.pending := rfl

@[simp] theorem setCounter_timebase (s : State) (v : Timecode) :
    (setCounter v s).timebase = s.timebase := rfl

@[simp] theorem setCounter_startup (s : State) (v : Timecode) :
    (setCounter v s).startup = s.startup := rfl

@[simp] theorem setCounter_save (s : State) (v : Timecode) :
    (setCounter v s).save = s.save := rfl

@[simp] theorem setCounter_memory (s : State) (v : Timecode) :
    (setCounter v s).memory = s.memory := rfl

@[simp] theorem setCounter_settings (s : State) (v : Timecode) :
    (setCounter v s).settings = s.settings := rfl

@[simp] theorem setCounter_store (s : State) (v : Timecode) :
    (setCounter v s).store = s.store := rfl

@[simp] theorem setCounter_ports (s : State) (v : Timecode) :
    (setCounter v s).ports = s.ports := rfl

@[simp] theorem setCounter_authority (s : State) (v : Timecode) :
    (setCounter v s).authority = s.authority := rfl

@[simp] theorem setCounter_joysticks (s : State) (v : Timecode) :
    (setCounter v s).joysticks = s.joysticks := rfl

@[simp] theorem setCounter_cache (s : State) (v : Timecode) :
    (setCounter v s).cache = s.cache := rfl

@[simp] theorem setCounter_queue (s : State) (v : Timecode) :
    (setCounter v s).queue = s.queue := rfl

@[simp] theorem setCounter_nextMoveId (s : State) (v : Timecode) :
    (setCounter v s).nextMoveId = s.nextMoveId := rfl

@[simp] theorem setCounter_blend (s : State) (v : Timecode) :
    (setCounter v s).blend = s.blend := rfl

@[simp] theorem setCounter_couplings (s : State) (v : Timecode) :
    (setCounter v s).couplings = s.couplings := rfl

@[simp] theorem setCounter_demand (s : State) (v : Timecode) :
    (setCounter v s).demand = s.demand := rfl

@[simp] theorem setCounter_clamped (s : State) (v : Timecode) :
    (setCounter v s).clamped = s.clamped := rfl

@[simp] theorem setCounter_armed (s : State) (v : Timecode) :
    (setCounter v s).armed = s.armed := rfl

@[simp] theorem setCounter_bus (s : State) (v : Timecode) : (setCounter v s).bus = s.bus := rfl

@[simp] theorem setCounter_faults (s : State) (v : Timecode) :
    (setCounter v s).faults = s.faults := rfl

@[simp] theorem setCounter_freeDraws (s : State) (v : Timecode) :
    (setCounter v s).freeDraws = s.freeDraws := rfl

/-! ### setLock -/

@[simp] theorem setLock_pending (s : State) (l : LockState) (n : Nat) :
    (setLock l n s).pending = s.pending := rfl

@[simp] theorem setLock_timebase (s : State) (l : LockState) (n : Nat) :
    (setLock l n s).timebase = s.timebase := rfl

@[simp] theorem setLock_startup (s : State) (l : LockState) (n : Nat) :
    (setLock l n s).startup = s.startup := rfl

@[simp] theorem setLock_save (s : State) (l : LockState) (n : Nat) :
    (setLock l n s).save = s.save := rfl

@[simp] theorem setLock_memory (s : State) (l : LockState) (n : Nat) :
    (setLock l n s).memory = s.memory := rfl

@[simp] theorem setLock_settings (s : State) (l : LockState) (n : Nat) :
    (setLock l n s).settings = s.settings := rfl

@[simp] theorem setLock_store (s : State) (l : LockState) (n : Nat) :
    (setLock l n s).store = s.store := rfl

@[simp] theorem setLock_ports (s : State) (l : LockState) (n : Nat) :
    (setLock l n s).ports = s.ports := rfl

@[simp] theorem setLock_authority (s : State) (l : LockState) (n : Nat) :
    (setLock l n s).authority = s.authority := rfl

@[simp] theorem setLock_joysticks (s : State) (l : LockState) (n : Nat) :
    (setLock l n s).joysticks = s.joysticks := rfl

@[simp] theorem setLock_cache (s : State) (l : LockState) (n : Nat) :
    (setLock l n s).cache = s.cache := rfl

@[simp] theorem setLock_queue (s : State) (l : LockState) (n : Nat) :
    (setLock l n s).queue = s.queue := rfl

@[simp] theorem setLock_nextMoveId (s : State) (l : LockState) (n : Nat) :
    (setLock l n s).nextMoveId = s.nextMoveId := rfl

@[simp] theorem setLock_blend (s : State) (l : LockState) (n : Nat) :
    (setLock l n s).blend = s.blend := rfl

@[simp] theorem setLock_couplings (s : State) (l : LockState) (n : Nat) :
    (setLock l n s).couplings = s.couplings := rfl

@[simp] theorem setLock_demand (s : State) (l : LockState) (n : Nat) :
    (setLock l n s).demand = s.demand := rfl

@[simp] theorem setLock_clamped (s : State) (l : LockState) (n : Nat) :
    (setLock l n s).clamped = s.clamped := rfl

@[simp] theorem setLock_armed (s : State) (l : LockState) (n : Nat) :
    (setLock l n s).armed = s.armed := rfl

@[simp] theorem setLock_bus (s : State) (l : LockState) (n : Nat) :
    (setLock l n s).bus = s.bus := rfl

@[simp] theorem setLock_faults (s : State) (l : LockState) (n : Nat) :
    (setLock l n s).faults = s.faults := rfl

@[simp] theorem setLock_freeDraws (s : State) (l : LockState) (n : Nat) :
    (setLock l n s).freeDraws = s.freeDraws := rfl

/-! ### capturePeriod -/

@[simp] theorem capturePeriod_pending (s : State) : (capturePeriod s).pending = s.pending := rfl

@[simp] theorem capturePeriod_timebase (s : State) : (capturePeriod s).timebase = s.timebase := rfl

@[simp] theorem capturePeriod_startup (s : State) : (capturePeriod s).startup = s.startup := rfl

@[simp] theorem capturePeriod_save (s : State) : (capturePeriod s).save = s.save := rfl

@[simp] theorem capturePeriod_memory (s : State) : (capturePeriod s).memory = s.memory := rfl

@[simp] theorem capturePeriod_settings (s : State) : (capturePeriod s).settings = s.settings := rfl

@[simp] theorem capturePeriod_store (s : State) : (capturePeriod s).store = s.store := rfl

@[simp] theorem capturePeriod_ports (s : State) : (capturePeriod s).ports = s.ports := rfl

@[simp] theorem capturePeriod_authority (s : State) :
    (capturePeriod s).authority = s.authority := rfl

@[simp] theorem capturePeriod_joysticks (s : State) :
    (capturePeriod s).joysticks = s.joysticks := rfl

@[simp] theorem capturePeriod_cache (s : State) : (capturePeriod s).cache = s.cache := rfl

@[simp] theorem capturePeriod_queue (s : State) : (capturePeriod s).queue = s.queue := rfl

@[simp] theorem capturePeriod_nextMoveId (s : State) :
    (capturePeriod s).nextMoveId = s.nextMoveId := rfl

@[simp] theorem capturePeriod_blend (s : State) : (capturePeriod s).blend = s.blend := rfl

@[simp] theorem capturePeriod_couplings (s : State) :
    (capturePeriod s).couplings = s.couplings := rfl

@[simp] theorem capturePeriod_demand (s : State) : (capturePeriod s).demand = s.demand := rfl

@[simp] theorem capturePeriod_clamped (s : State) : (capturePeriod s).clamped = s.clamped := rfl

@[simp] theorem capturePeriod_armed (s : State) : (capturePeriod s).armed = s.armed := rfl

@[simp] theorem capturePeriod_bus (s : State) : (capturePeriod s).bus = s.bus := rfl

@[simp] theorem capturePeriod_faults (s : State) : (capturePeriod s).faults = s.faults := rfl

@[simp] theorem capturePeriod_freeDraws (s : State) :
    (capturePeriod s).freeDraws = s.freeDraws := rfl

/-! ### cueMatch -/

@[simp] theorem cueMatch_pending (s : State) (v : Timecode) :
    (cueMatch v s).pending = s.pending := rfl

@[simp] theorem cueMatch_timebase (s : State) (v : Timecode) :
    (cueMatch v s).timebase = s.timebase := rfl

@[simp] theorem cueMatch_startup (s : State) (v : Timecode) :
    (cueMatch v s).startup = s.startup := rfl

@[simp] theorem cueMatch_save (s : State) (v : Timecode) : (cueMatch v s).save = s.save := rfl

@[simp] theorem cueMatch_memory (s : State) (v : Timecode) :
    (cueMatch v s).memory = s.memory := rfl

@[simp] theorem cueMatch_settings (s : State) (v : Timecode) :
    (cueMatch v s).settings = s.settings := rfl

@[simp] theorem cueMatch_store (s : State) (v : Timecode) : (cueMatch v s).store = s.store := rfl

@[simp] theorem cueMatch_ports (s : State) (v : Timecode) : (cueMatch v s).ports = s.ports := rfl

@[simp] theorem cueMatch_authority (s : State) (v : Timecode) :
    (cueMatch v s).authority = s.authority := rfl

@[simp] theorem cueMatch_joysticks (s : State) (v : Timecode) :
    (cueMatch v s).joysticks = s.joysticks := rfl

@[simp] theorem cueMatch_cache (s : State) (v : Timecode) : (cueMatch v s).cache = s.cache := rfl

@[simp] theorem cueMatch_nextMoveId (s : State) (v : Timecode) :
    (cueMatch v s).nextMoveId = s.nextMoveId := rfl

@[simp] theorem cueMatch_blend (s : State) (v : Timecode) : (cueMatch v s).blend = s.blend := rfl

@[simp] theorem cueMatch_couplings (s : State) (v : Timecode) :
    (cueMatch v s).couplings = s.couplings := rfl

@[simp] theorem cueMatch_demand (s : State) (v : Timecode) :
    (cueMatch v s).demand = s.demand := rfl

@[simp] theorem cueMatch_clamped (s : State) (v : Timecode) :
    (cueMatch v s).clamped = s.clamped := rfl

@[simp] theorem cueMatch_armed (s : State) (v : Timecode) : (cueMatch v s).armed = s.armed := rfl

@[simp] theorem cueMatch_timecode (s : State) (v : Timecode) :
    (cueMatch v s).timecode = s.timecode := rfl

@[simp] theorem cueMatch_bus (s : State) (v : Timecode) : (cueMatch v s).bus = s.bus := rfl

@[simp] theorem cueMatch_faults (s : State) (v : Timecode) :
    (cueMatch v s).faults = s.faults := rfl

@[simp] theorem cueMatch_freeDraws (s : State) (v : Timecode) :
    (cueMatch v s).freeDraws = s.freeDraws := rfl

/-! ### writeMove -/

@[simp] theorem writeMove_pending (s : State) (m : Move) :
    (writeMove m s).pending = s.pending := rfl

@[simp] theorem writeMove_timebase (s : State) (m : Move) :
    (writeMove m s).timebase = s.timebase := rfl

@[simp] theorem writeMove_startup (s : State) (m : Move) :
    (writeMove m s).startup = s.startup := rfl

@[simp] theorem writeMove_save (s : State) (m : Move) : (writeMove m s).save = s.save := rfl

@[simp] theorem writeMove_memory (s : State) (m : Move) : (writeMove m s).memory = s.memory := rfl

@[simp] theorem writeMove_settings (s : State) (m : Move) :
    (writeMove m s).settings = s.settings := rfl

@[simp] theorem writeMove_store (s : State) (m : Move) : (writeMove m s).store = s.store := rfl

@[simp] theorem writeMove_ports (s : State) (m : Move) : (writeMove m s).ports = s.ports := rfl

@[simp] theorem writeMove_authority (s : State) (m : Move) :
    (writeMove m s).authority = s.authority := rfl

@[simp] theorem writeMove_joysticks (s : State) (m : Move) :
    (writeMove m s).joysticks = s.joysticks := rfl

@[simp] theorem writeMove_cache (s : State) (m : Move) : (writeMove m s).cache = s.cache := rfl

@[simp] theorem writeMove_queue (s : State) (m : Move) :
    (writeMove m s).queue = replaceMove m.id (fun _ => m) s.queue := rfl

@[simp] theorem writeMove_nextMoveId (s : State) (m : Move) :
    (writeMove m s).nextMoveId = s.nextMoveId := rfl

@[simp] theorem writeMove_blend (s : State) (m : Move) : (writeMove m s).blend = s.blend := rfl

@[simp] theorem writeMove_couplings (s : State) (m : Move) :
    (writeMove m s).couplings = s.couplings := rfl

@[simp] theorem writeMove_demand (s : State) (m : Move) : (writeMove m s).demand = s.demand := rfl

@[simp] theorem writeMove_clamped (s : State) (m : Move) :
    (writeMove m s).clamped = s.clamped := rfl

@[simp] theorem writeMove_armed (s : State) (m : Move) : (writeMove m s).armed = s.armed := rfl

@[simp] theorem writeMove_timecode (s : State) (m : Move) :
    (writeMove m s).timecode = s.timecode := rfl

@[simp] theorem writeMove_bus (s : State) (m : Move) : (writeMove m s).bus = s.bus := rfl

@[simp] theorem writeMove_faults (s : State) (m : Move) : (writeMove m s).faults = s.faults := rfl

@[simp] theorem writeMove_freeDraws (s : State) (m : Move) :
    (writeMove m s).freeDraws = s.freeDraws := rfl

/-! ### writePresets -/

@[simp] theorem writePresets_pending (s : State) (x : AxisSet) (g : Segment) :
    (writePresets x g s).pending = s.pending := rfl

@[simp] theorem writePresets_timebase (s : State) (x : AxisSet) (g : Segment) :
    (writePresets x g s).timebase = s.timebase := rfl

@[simp] theorem writePresets_startup (s : State) (x : AxisSet) (g : Segment) :
    (writePresets x g s).startup = s.startup := rfl

@[simp] theorem writePresets_save (s : State) (x : AxisSet) (g : Segment) :
    (writePresets x g s).save = s.save := rfl

@[simp] theorem writePresets_memory (s : State) (x : AxisSet) (g : Segment) :
    (writePresets x g s).memory = s.memory := rfl

@[simp] theorem writePresets_settings (s : State) (x : AxisSet) (g : Segment) :
    (writePresets x g s).settings = s.settings := rfl

@[simp] theorem writePresets_store (s : State) (x : AxisSet) (g : Segment) :
    (writePresets x g s).store = s.store := rfl

@[simp] theorem writePresets_ports (s : State) (x : AxisSet) (g : Segment) :
    (writePresets x g s).ports = s.ports := rfl

@[simp] theorem writePresets_authority (s : State) (x : AxisSet) (g : Segment) :
    (writePresets x g s).authority = s.authority := rfl

@[simp] theorem writePresets_joysticks (s : State) (x : AxisSet) (g : Segment) :
    (writePresets x g s).joysticks = s.joysticks := rfl

@[simp] theorem writePresets_cache (s : State) (x : AxisSet) (g : Segment) :
    (writePresets x g s).cache = s.cache := rfl

@[simp] theorem writePresets_queue (s : State) (x : AxisSet) (g : Segment) :
    (writePresets x g s).queue = s.queue := rfl

@[simp] theorem writePresets_nextMoveId (s : State) (x : AxisSet) (g : Segment) :
    (writePresets x g s).nextMoveId = s.nextMoveId := rfl

@[simp] theorem writePresets_couplings (s : State) (x : AxisSet) (g : Segment) :
    (writePresets x g s).couplings = s.couplings := rfl

@[simp] theorem writePresets_demand (s : State) (x : AxisSet) (g : Segment) :
    (writePresets x g s).demand = s.demand := rfl

@[simp] theorem writePresets_clamped (s : State) (x : AxisSet) (g : Segment) :
    (writePresets x g s).clamped = s.clamped := rfl

@[simp] theorem writePresets_armed (s : State) (x : AxisSet) (g : Segment) :
    (writePresets x g s).armed = s.armed := rfl

@[simp] theorem writePresets_timecode (s : State) (x : AxisSet) (g : Segment) :
    (writePresets x g s).timecode = s.timecode := rfl

@[simp] theorem writePresets_bus (s : State) (x : AxisSet) (g : Segment) :
    (writePresets x g s).bus = s.bus := rfl

@[simp] theorem writePresets_faults (s : State) (x : AxisSet) (g : Segment) :
    (writePresets x g s).faults = s.faults := rfl

@[simp] theorem writePresets_freeDraws (s : State) (x : AxisSet) (g : Segment) :
    (writePresets x g s).freeDraws = s.freeDraws := rfl

/-! ### presetStarts -/

@[simp] theorem presetStarts_pending (s : State) (k : PerAxis Int) (x : AxisSet) :
    (presetStarts k x s).pending = s.pending := rfl

@[simp] theorem presetStarts_timebase (s : State) (k : PerAxis Int) (x : AxisSet) :
    (presetStarts k x s).timebase = s.timebase := rfl

@[simp] theorem presetStarts_startup (s : State) (k : PerAxis Int) (x : AxisSet) :
    (presetStarts k x s).startup = s.startup := rfl

@[simp] theorem presetStarts_save (s : State) (k : PerAxis Int) (x : AxisSet) :
    (presetStarts k x s).save = s.save := rfl

@[simp] theorem presetStarts_memory (s : State) (k : PerAxis Int) (x : AxisSet) :
    (presetStarts k x s).memory = s.memory := rfl

@[simp] theorem presetStarts_settings (s : State) (k : PerAxis Int) (x : AxisSet) :
    (presetStarts k x s).settings = s.settings := rfl

@[simp] theorem presetStarts_store (s : State) (k : PerAxis Int) (x : AxisSet) :
    (presetStarts k x s).store = s.store := rfl

@[simp] theorem presetStarts_ports (s : State) (k : PerAxis Int) (x : AxisSet) :
    (presetStarts k x s).ports = s.ports := rfl

@[simp] theorem presetStarts_authority (s : State) (k : PerAxis Int) (x : AxisSet) :
    (presetStarts k x s).authority = s.authority := rfl

@[simp] theorem presetStarts_joysticks (s : State) (k : PerAxis Int) (x : AxisSet) :
    (presetStarts k x s).joysticks = s.joysticks := rfl

@[simp] theorem presetStarts_cache (s : State) (k : PerAxis Int) (x : AxisSet) :
    (presetStarts k x s).cache = s.cache := rfl

@[simp] theorem presetStarts_queue (s : State) (k : PerAxis Int) (x : AxisSet) :
    (presetStarts k x s).queue = s.queue := rfl

@[simp] theorem presetStarts_nextMoveId (s : State) (k : PerAxis Int) (x : AxisSet) :
    (presetStarts k x s).nextMoveId = s.nextMoveId := rfl

@[simp] theorem presetStarts_couplings (s : State) (k : PerAxis Int) (x : AxisSet) :
    (presetStarts k x s).couplings = s.couplings := rfl

@[simp] theorem presetStarts_demand (s : State) (k : PerAxis Int) (x : AxisSet) :
    (presetStarts k x s).demand = s.demand := rfl

@[simp] theorem presetStarts_clamped (s : State) (k : PerAxis Int) (x : AxisSet) :
    (presetStarts k x s).clamped = s.clamped := rfl

@[simp] theorem presetStarts_armed (s : State) (k : PerAxis Int) (x : AxisSet) :
    (presetStarts k x s).armed = s.armed := rfl

@[simp] theorem presetStarts_timecode (s : State) (k : PerAxis Int) (x : AxisSet) :
    (presetStarts k x s).timecode = s.timecode := rfl

@[simp] theorem presetStarts_bus (s : State) (k : PerAxis Int) (x : AxisSet) :
    (presetStarts k x s).bus = s.bus := rfl

@[simp] theorem presetStarts_faults (s : State) (k : PerAxis Int) (x : AxisSet) :
    (presetStarts k x s).faults = s.faults := rfl

@[simp] theorem presetStarts_freeDraws (s : State) (k : PerAxis Int) (x : AxisSet) :
    (presetStarts k x s).freeDraws = s.freeDraws := rfl

/-! ### holdAxes -/

@[simp] theorem holdAxes_pending (s : State) (x : AxisSet) :
    (holdAxes x s).pending = s.pending := rfl

@[simp] theorem holdAxes_timebase (s : State) (x : AxisSet) :
    (holdAxes x s).timebase = s.timebase := rfl

@[simp] theorem holdAxes_startup (s : State) (x : AxisSet) :
    (holdAxes x s).startup = s.startup := rfl

@[simp] theorem holdAxes_save (s : State) (x : AxisSet) : (holdAxes x s).save = s.save := rfl

@[simp] theorem holdAxes_memory (s : State) (x : AxisSet) :
    (holdAxes x s).memory = s.memory := rfl

@[simp] theorem holdAxes_settings (s : State) (x : AxisSet) :
    (holdAxes x s).settings = s.settings := rfl

@[simp] theorem holdAxes_store (s : State) (x : AxisSet) : (holdAxes x s).store = s.store := rfl

@[simp] theorem holdAxes_ports (s : State) (x : AxisSet) : (holdAxes x s).ports = s.ports := rfl

@[simp] theorem holdAxes_authority (s : State) (x : AxisSet) :
    (holdAxes x s).authority = s.authority := rfl

@[simp] theorem holdAxes_joysticks (s : State) (x : AxisSet) :
    (holdAxes x s).joysticks = s.joysticks := rfl

@[simp] theorem holdAxes_cache (s : State) (x : AxisSet) : (holdAxes x s).cache = s.cache := rfl

@[simp] theorem holdAxes_queue (s : State) (x : AxisSet) : (holdAxes x s).queue = s.queue := rfl

@[simp] theorem holdAxes_nextMoveId (s : State) (x : AxisSet) :
    (holdAxes x s).nextMoveId = s.nextMoveId := rfl

@[simp] theorem holdAxes_blend (s : State) (x : AxisSet) :
    (holdAxes x s).blend = mapAt x Blend.toHold s.blend := rfl

@[simp] theorem holdAxes_couplings (s : State) (x : AxisSet) :
    (holdAxes x s).couplings = s.couplings := rfl

@[simp] theorem holdAxes_demand (s : State) (x : AxisSet) :
    (holdAxes x s).demand = s.demand := rfl

@[simp] theorem holdAxes_clamped (s : State) (x : AxisSet) :
    (holdAxes x s).clamped = s.clamped := rfl

@[simp] theorem holdAxes_armed (s : State) (x : AxisSet) : (holdAxes x s).armed = s.armed := rfl

@[simp] theorem holdAxes_timecode (s : State) (x : AxisSet) :
    (holdAxes x s).timecode = s.timecode := rfl

@[simp] theorem holdAxes_bus (s : State) (x : AxisSet) : (holdAxes x s).bus = s.bus := rfl

@[simp] theorem holdAxes_faults (s : State) (x : AxisSet) :
    (holdAxes x s).faults = s.faults := rfl

@[simp] theorem holdAxes_freeDraws (s : State) (x : AxisSet) :
    (holdAxes x s).freeDraws = s.freeDraws := rfl

/-! ### endHandoffs -/

@[simp] theorem endHandoffs_pending (s : State) (x : AxisSet) :
    (endHandoffs x s).pending = s.pending := rfl

@[simp] theorem endHandoffs_timebase (s : State) (x : AxisSet) :
    (endHandoffs x s).timebase = s.timebase := rfl

@[simp] theorem endHandoffs_startup (s : State) (x : AxisSet) :
    (endHandoffs x s).startup = s.startup := rfl

@[simp] theorem endHandoffs_save (s : State) (x : AxisSet) :
    (endHandoffs x s).save = s.save := rfl

@[simp] theorem endHandoffs_memory (s : State) (x : AxisSet) :
    (endHandoffs x s).memory = s.memory := rfl

@[simp] theorem endHandoffs_settings (s : State) (x : AxisSet) :
    (endHandoffs x s).settings = s.settings := rfl

@[simp] theorem endHandoffs_store (s : State) (x : AxisSet) :
    (endHandoffs x s).store = s.store := rfl

@[simp] theorem endHandoffs_ports (s : State) (x : AxisSet) :
    (endHandoffs x s).ports = s.ports := rfl

@[simp] theorem endHandoffs_authority (s : State) (x : AxisSet) :
    (endHandoffs x s).authority = s.authority := rfl

@[simp] theorem endHandoffs_joysticks (s : State) (x : AxisSet) :
    (endHandoffs x s).joysticks = s.joysticks := rfl

@[simp] theorem endHandoffs_cache (s : State) (x : AxisSet) :
    (endHandoffs x s).cache = s.cache := rfl

@[simp] theorem endHandoffs_queue (s : State) (x : AxisSet) :
    (endHandoffs x s).queue = s.queue := rfl

@[simp] theorem endHandoffs_nextMoveId (s : State) (x : AxisSet) :
    (endHandoffs x s).nextMoveId = s.nextMoveId := rfl

@[simp] theorem endHandoffs_blend (s : State) (x : AxisSet) :
    (endHandoffs x s).blend = mapAt (handoffAxes s x) Blend.endHandoff s.blend := rfl

@[simp] theorem endHandoffs_couplings (s : State) (x : AxisSet) :
    (endHandoffs x s).couplings = s.couplings := rfl

@[simp] theorem endHandoffs_demand (s : State) (x : AxisSet) :
    (endHandoffs x s).demand = s.demand := rfl

@[simp] theorem endHandoffs_clamped (s : State) (x : AxisSet) :
    (endHandoffs x s).clamped = s.clamped := rfl

@[simp] theorem endHandoffs_armed (s : State) (x : AxisSet) :
    (endHandoffs x s).armed = s.armed := rfl

@[simp] theorem endHandoffs_timecode (s : State) (x : AxisSet) :
    (endHandoffs x s).timecode = s.timecode := rfl

@[simp] theorem endHandoffs_bus (s : State) (x : AxisSet) :
    (endHandoffs x s).bus = s.bus := rfl

@[simp] theorem endHandoffs_faults (s : State) (x : AxisSet) :
    (endHandoffs x s).faults = s.faults := rfl

@[simp] theorem endHandoffs_freeDraws (s : State) (x : AxisSet) :
    (endHandoffs x s).freeDraws = s.freeDraws := rfl

/-! ### setSafeStop -/

@[simp] theorem setSafeStop_pending (s : State) (v : SafeStop) (t : Option Nat) :
    (setSafeStop v t s).pending = s.pending := rfl

@[simp] theorem setSafeStop_timebase (s : State) (v : SafeStop) (t : Option Nat) :
    (setSafeStop v t s).timebase = s.timebase := rfl

@[simp] theorem setSafeStop_startup (s : State) (v : SafeStop) (t : Option Nat) :
    (setSafeStop v t s).startup = s.startup := rfl

@[simp] theorem setSafeStop_save (s : State) (v : SafeStop) (t : Option Nat) :
    (setSafeStop v t s).save = s.save := rfl

@[simp] theorem setSafeStop_memory (s : State) (v : SafeStop) (t : Option Nat) :
    (setSafeStop v t s).memory = s.memory := rfl

@[simp] theorem setSafeStop_settings (s : State) (v : SafeStop) (t : Option Nat) :
    (setSafeStop v t s).settings = s.settings := rfl

@[simp] theorem setSafeStop_store (s : State) (v : SafeStop) (t : Option Nat) :
    (setSafeStop v t s).store = s.store := rfl

@[simp] theorem setSafeStop_ports (s : State) (v : SafeStop) (t : Option Nat) :
    (setSafeStop v t s).ports = s.ports := rfl

@[simp] theorem setSafeStop_authority (s : State) (v : SafeStop) (t : Option Nat) :
    (setSafeStop v t s).authority = s.authority := rfl

@[simp] theorem setSafeStop_joysticks (s : State) (v : SafeStop) (t : Option Nat) :
    (setSafeStop v t s).joysticks = s.joysticks := rfl

@[simp] theorem setSafeStop_cache (s : State) (v : SafeStop) (t : Option Nat) :
    (setSafeStop v t s).cache = s.cache := rfl

@[simp] theorem setSafeStop_queue (s : State) (v : SafeStop) (t : Option Nat) :
    (setSafeStop v t s).queue = s.queue := rfl

@[simp] theorem setSafeStop_nextMoveId (s : State) (v : SafeStop) (t : Option Nat) :
    (setSafeStop v t s).nextMoveId = s.nextMoveId := rfl

@[simp] theorem setSafeStop_blend (s : State) (v : SafeStop) (t : Option Nat) :
    (setSafeStop v t s).blend = s.blend := rfl

@[simp] theorem setSafeStop_couplings (s : State) (v : SafeStop) (t : Option Nat) :
    (setSafeStop v t s).couplings = s.couplings := rfl

@[simp] theorem setSafeStop_demand (s : State) (v : SafeStop) (t : Option Nat) :
    (setSafeStop v t s).demand = s.demand := rfl

@[simp] theorem setSafeStop_clamped (s : State) (v : SafeStop) (t : Option Nat) :
    (setSafeStop v t s).clamped = s.clamped := rfl

@[simp] theorem setSafeStop_armed (s : State) (v : SafeStop) (t : Option Nat) :
    (setSafeStop v t s).armed = s.armed := rfl

@[simp] theorem setSafeStop_timecode (s : State) (v : SafeStop) (t : Option Nat) :
    (setSafeStop v t s).timecode = s.timecode := rfl

@[simp] theorem setSafeStop_bus (s : State) (v : SafeStop) (t : Option Nat) :
    (setSafeStop v t s).bus = s.bus := rfl

@[simp] theorem setSafeStop_freeDraws (s : State) (v : SafeStop) (t : Option Nat) :
    (setSafeStop v t s).freeDraws = s.freeDraws := rfl

/-! ### setStopCause -/

@[simp] theorem setStopCause_pending (s : State) (c : StopCause) :
    (setStopCause c s).pending = s.pending := rfl

@[simp] theorem setStopCause_timebase (s : State) (c : StopCause) :
    (setStopCause c s).timebase = s.timebase := rfl

@[simp] theorem setStopCause_startup (s : State) (c : StopCause) :
    (setStopCause c s).startup = s.startup := rfl

@[simp] theorem setStopCause_save (s : State) (c : StopCause) :
    (setStopCause c s).save = s.save := rfl

@[simp] theorem setStopCause_memory (s : State) (c : StopCause) :
    (setStopCause c s).memory = s.memory := rfl

@[simp] theorem setStopCause_settings (s : State) (c : StopCause) :
    (setStopCause c s).settings = s.settings := rfl

@[simp] theorem setStopCause_store (s : State) (c : StopCause) :
    (setStopCause c s).store = s.store := rfl

@[simp] theorem setStopCause_ports (s : State) (c : StopCause) :
    (setStopCause c s).ports = s.ports := rfl

@[simp] theorem setStopCause_authority (s : State) (c : StopCause) :
    (setStopCause c s).authority = s.authority := rfl

@[simp] theorem setStopCause_joysticks (s : State) (c : StopCause) :
    (setStopCause c s).joysticks = s.joysticks := rfl

@[simp] theorem setStopCause_cache (s : State) (c : StopCause) :
    (setStopCause c s).cache = s.cache := rfl

@[simp] theorem setStopCause_queue (s : State) (c : StopCause) :
    (setStopCause c s).queue = s.queue := rfl

@[simp] theorem setStopCause_nextMoveId (s : State) (c : StopCause) :
    (setStopCause c s).nextMoveId = s.nextMoveId := rfl

@[simp] theorem setStopCause_blend (s : State) (c : StopCause) :
    (setStopCause c s).blend = s.blend := rfl

@[simp] theorem setStopCause_couplings (s : State) (c : StopCause) :
    (setStopCause c s).couplings = s.couplings := rfl

@[simp] theorem setStopCause_demand (s : State) (c : StopCause) :
    (setStopCause c s).demand = s.demand := rfl

@[simp] theorem setStopCause_clamped (s : State) (c : StopCause) :
    (setStopCause c s).clamped = s.clamped := rfl

@[simp] theorem setStopCause_armed (s : State) (c : StopCause) :
    (setStopCause c s).armed = s.armed := rfl

@[simp] theorem setStopCause_timecode (s : State) (c : StopCause) :
    (setStopCause c s).timecode = s.timecode := rfl

@[simp] theorem setStopCause_bus (s : State) (c : StopCause) :
    (setStopCause c s).bus = s.bus := rfl

@[simp] theorem setStopCause_freeDraws (s : State) (c : StopCause) :
    (setStopCause c s).freeDraws = s.freeDraws := rfl

/-! ### releaseDrives -/

@[simp] theorem releaseDrives_pending (s : State) : (releaseDrives s).pending = s.pending := rfl

@[simp] theorem releaseDrives_timebase (s : State) : (releaseDrives s).timebase = s.timebase := rfl

@[simp] theorem releaseDrives_startup (s : State) : (releaseDrives s).startup = s.startup := rfl

@[simp] theorem releaseDrives_save (s : State) : (releaseDrives s).save = s.save := rfl

@[simp] theorem releaseDrives_memory (s : State) : (releaseDrives s).memory = s.memory := rfl

@[simp] theorem releaseDrives_settings (s : State) : (releaseDrives s).settings = s.settings := rfl

@[simp] theorem releaseDrives_store (s : State) : (releaseDrives s).store = s.store := rfl

@[simp] theorem releaseDrives_ports (s : State) : (releaseDrives s).ports = s.ports := rfl

@[simp] theorem releaseDrives_authority (s : State) :
    (releaseDrives s).authority = s.authority := rfl

@[simp] theorem releaseDrives_joysticks (s : State) :
    (releaseDrives s).joysticks = s.joysticks := rfl

@[simp] theorem releaseDrives_cache (s : State) : (releaseDrives s).cache = s.cache := rfl

@[simp] theorem releaseDrives_queue (s : State) : (releaseDrives s).queue = s.queue := rfl

@[simp] theorem releaseDrives_nextMoveId (s : State) :
    (releaseDrives s).nextMoveId = s.nextMoveId := rfl

@[simp] theorem releaseDrives_blend (s : State) : (releaseDrives s).blend = s.blend := rfl

@[simp] theorem releaseDrives_couplings (s : State) :
    (releaseDrives s).couplings = s.couplings := rfl

@[simp] theorem releaseDrives_demand (s : State) : (releaseDrives s).demand = s.demand := rfl

@[simp] theorem releaseDrives_clamped (s : State) : (releaseDrives s).clamped = s.clamped := rfl

@[simp] theorem releaseDrives_armed (s : State) : (releaseDrives s).armed = s.armed := rfl

@[simp] theorem releaseDrives_timecode (s : State) : (releaseDrives s).timecode = s.timecode := rfl

@[simp] theorem releaseDrives_faults (s : State) : (releaseDrives s).faults = s.faults := rfl

@[simp] theorem releaseDrives_freeDraws (s : State) :
    (releaseDrives s).freeDraws = s.freeDraws := rfl

/-! ### setEstop -/

@[simp] theorem setEstop_pending (s : State) (b : Bool) : (setEstop b s).pending = s.pending := rfl

@[simp] theorem setEstop_timebase (s : State) (b : Bool) :
    (setEstop b s).timebase = s.timebase := rfl

@[simp] theorem setEstop_startup (s : State) (b : Bool) : (setEstop b s).startup = s.startup := rfl

@[simp] theorem setEstop_save (s : State) (b : Bool) : (setEstop b s).save = s.save := rfl

@[simp] theorem setEstop_memory (s : State) (b : Bool) : (setEstop b s).memory = s.memory := rfl

@[simp] theorem setEstop_settings (s : State) (b : Bool) :
    (setEstop b s).settings = s.settings := rfl

@[simp] theorem setEstop_store (s : State) (b : Bool) : (setEstop b s).store = s.store := rfl

@[simp] theorem setEstop_ports (s : State) (b : Bool) : (setEstop b s).ports = s.ports := rfl

@[simp] theorem setEstop_authority (s : State) (b : Bool) :
    (setEstop b s).authority = s.authority := rfl

@[simp] theorem setEstop_joysticks (s : State) (b : Bool) :
    (setEstop b s).joysticks = s.joysticks := rfl

@[simp] theorem setEstop_cache (s : State) (b : Bool) : (setEstop b s).cache = s.cache := rfl

@[simp] theorem setEstop_queue (s : State) (b : Bool) : (setEstop b s).queue = s.queue := rfl

@[simp] theorem setEstop_nextMoveId (s : State) (b : Bool) :
    (setEstop b s).nextMoveId = s.nextMoveId := rfl

@[simp] theorem setEstop_blend (s : State) (b : Bool) : (setEstop b s).blend = s.blend := rfl

@[simp] theorem setEstop_couplings (s : State) (b : Bool) :
    (setEstop b s).couplings = s.couplings := rfl

@[simp] theorem setEstop_demand (s : State) (b : Bool) : (setEstop b s).demand = s.demand := rfl

@[simp] theorem setEstop_clamped (s : State) (b : Bool) : (setEstop b s).clamped = s.clamped := rfl

@[simp] theorem setEstop_armed (s : State) (b : Bool) : (setEstop b s).armed = s.armed := rfl

@[simp] theorem setEstop_timecode (s : State) (b : Bool) :
    (setEstop b s).timecode = s.timecode := rfl

@[simp] theorem setEstop_bus (s : State) (b : Bool) : (setEstop b s).bus = s.bus := rfl

@[simp] theorem setEstop_freeDraws (s : State) (b : Bool) :
    (setEstop b s).freeDraws = s.freeDraws := rfl

/-! ### setStale -/

@[simp] theorem setStale_pending (s : State) (m : Master) (v : StaleState) :
    (setStale m v s).pending = s.pending := rfl

@[simp] theorem setStale_timebase (s : State) (m : Master) (v : StaleState) :
    (setStale m v s).timebase = s.timebase := rfl

@[simp] theorem setStale_startup (s : State) (m : Master) (v : StaleState) :
    (setStale m v s).startup = s.startup := rfl

@[simp] theorem setStale_save (s : State) (m : Master) (v : StaleState) :
    (setStale m v s).save = s.save := rfl

@[simp] theorem setStale_memory (s : State) (m : Master) (v : StaleState) :
    (setStale m v s).memory = s.memory := rfl

@[simp] theorem setStale_settings (s : State) (m : Master) (v : StaleState) :
    (setStale m v s).settings = s.settings := rfl

@[simp] theorem setStale_store (s : State) (m : Master) (v : StaleState) :
    (setStale m v s).store = s.store := rfl

@[simp] theorem setStale_ports (s : State) (m : Master) (v : StaleState) :
    (setStale m v s).ports = s.ports := rfl

@[simp] theorem setStale_authority (s : State) (m : Master) (v : StaleState) :
    (setStale m v s).authority = s.authority := rfl

@[simp] theorem setStale_cache (s : State) (m : Master) (v : StaleState) :
    (setStale m v s).cache = s.cache := rfl

@[simp] theorem setStale_queue (s : State) (m : Master) (v : StaleState) :
    (setStale m v s).queue = s.queue := rfl

@[simp] theorem setStale_nextMoveId (s : State) (m : Master) (v : StaleState) :
    (setStale m v s).nextMoveId = s.nextMoveId := rfl

@[simp] theorem setStale_blend (s : State) (m : Master) (v : StaleState) :
    (setStale m v s).blend = s.blend := rfl

@[simp] theorem setStale_couplings (s : State) (m : Master) (v : StaleState) :
    (setStale m v s).couplings = s.couplings := rfl

@[simp] theorem setStale_demand (s : State) (m : Master) (v : StaleState) :
    (setStale m v s).demand = s.demand := rfl

@[simp] theorem setStale_clamped (s : State) (m : Master) (v : StaleState) :
    (setStale m v s).clamped = s.clamped := rfl

@[simp] theorem setStale_armed (s : State) (m : Master) (v : StaleState) :
    (setStale m v s).armed = s.armed := rfl

@[simp] theorem setStale_timecode (s : State) (m : Master) (v : StaleState) :
    (setStale m v s).timecode = s.timecode := rfl

@[simp] theorem setStale_bus (s : State) (m : Master) (v : StaleState) :
    (setStale m v s).bus = s.bus := rfl

@[simp] theorem setStale_faults (s : State) (m : Master) (v : StaleState) :
    (setStale m v s).faults = s.faults := rfl

@[simp] theorem setStale_freeDraws (s : State) (m : Master) (v : StaleState) :
    (setStale m v s).freeDraws = s.freeDraws := rfl

/-! ### takeSample -/

@[simp] theorem takeSample_pending (s : State) (m : Master) (d : PerAxis Int) :
    (takeSample m d s).pending = s.pending := rfl

@[simp] theorem takeSample_timebase (s : State) (m : Master) (d : PerAxis Int) :
    (takeSample m d s).timebase = s.timebase := rfl

@[simp] theorem takeSample_startup (s : State) (m : Master) (d : PerAxis Int) :
    (takeSample m d s).startup = s.startup := rfl

@[simp] theorem takeSample_save (s : State) (m : Master) (d : PerAxis Int) :
    (takeSample m d s).save = s.save := rfl

@[simp] theorem takeSample_memory (s : State) (m : Master) (d : PerAxis Int) :
    (takeSample m d s).memory = s.memory := rfl

@[simp] theorem takeSample_settings (s : State) (m : Master) (d : PerAxis Int) :
    (takeSample m d s).settings = s.settings := rfl

@[simp] theorem takeSample_store (s : State) (m : Master) (d : PerAxis Int) :
    (takeSample m d s).store = s.store := rfl

@[simp] theorem takeSample_ports (s : State) (m : Master) (d : PerAxis Int) :
    (takeSample m d s).ports = s.ports := rfl

@[simp] theorem takeSample_authority (s : State) (m : Master) (d : PerAxis Int) :
    (takeSample m d s).authority = s.authority := rfl

@[simp] theorem takeSample_cache (s : State) (m : Master) (d : PerAxis Int) :
    (takeSample m d s).cache = s.cache := rfl

@[simp] theorem takeSample_queue (s : State) (m : Master) (d : PerAxis Int) :
    (takeSample m d s).queue = s.queue := rfl

@[simp] theorem takeSample_nextMoveId (s : State) (m : Master) (d : PerAxis Int) :
    (takeSample m d s).nextMoveId = s.nextMoveId := rfl

@[simp] theorem takeSample_blend (s : State) (m : Master) (d : PerAxis Int) :
    (takeSample m d s).blend = s.blend := rfl

@[simp] theorem takeSample_couplings (s : State) (m : Master) (d : PerAxis Int) :
    (takeSample m d s).couplings = s.couplings := rfl

@[simp] theorem takeSample_demand (s : State) (m : Master) (d : PerAxis Int) :
    (takeSample m d s).demand = s.demand := rfl

@[simp] theorem takeSample_clamped (s : State) (m : Master) (d : PerAxis Int) :
    (takeSample m d s).clamped = s.clamped := rfl

@[simp] theorem takeSample_armed (s : State) (m : Master) (d : PerAxis Int) :
    (takeSample m d s).armed = s.armed := rfl

@[simp] theorem takeSample_timecode (s : State) (m : Master) (d : PerAxis Int) :
    (takeSample m d s).timecode = s.timecode := rfl

@[simp] theorem takeSample_bus (s : State) (m : Master) (d : PerAxis Int) :
    (takeSample m d s).bus = s.bus := rfl

@[simp] theorem takeSample_faults (s : State) (m : Master) (d : PerAxis Int) :
    (takeSample m d s).faults = s.faults := rfl

@[simp] theorem takeSample_freeDraws (s : State) (m : Master) (d : PerAxis Int) :
    (takeSample m d s).freeDraws = s.freeDraws := rfl

/-! ### setProfileOf -/

@[simp] theorem setProfileOf_pending (s : State) (m : Master) (a : Axis) (p : Profile) :
    (setProfileOf m a p s).pending = s.pending := rfl

@[simp] theorem setProfileOf_timebase (s : State) (m : Master) (a : Axis) (p : Profile) :
    (setProfileOf m a p s).timebase = s.timebase := rfl

@[simp] theorem setProfileOf_startup (s : State) (m : Master) (a : Axis) (p : Profile) :
    (setProfileOf m a p s).startup = s.startup := rfl

@[simp] theorem setProfileOf_save (s : State) (m : Master) (a : Axis) (p : Profile) :
    (setProfileOf m a p s).save = s.save := rfl

@[simp] theorem setProfileOf_memory (s : State) (m : Master) (a : Axis) (p : Profile) :
    (setProfileOf m a p s).memory = s.memory := rfl

@[simp] theorem setProfileOf_store (s : State) (m : Master) (a : Axis) (p : Profile) :
    (setProfileOf m a p s).store = s.store := rfl

@[simp] theorem setProfileOf_ports (s : State) (m : Master) (a : Axis) (p : Profile) :
    (setProfileOf m a p s).ports = s.ports := rfl

@[simp] theorem setProfileOf_authority (s : State) (m : Master) (a : Axis) (p : Profile) :
    (setProfileOf m a p s).authority = s.authority := rfl

@[simp] theorem setProfileOf_joysticks (s : State) (m : Master) (a : Axis) (p : Profile) :
    (setProfileOf m a p s).joysticks = s.joysticks := rfl

@[simp] theorem setProfileOf_cache (s : State) (m : Master) (a : Axis) (p : Profile) :
    (setProfileOf m a p s).cache = s.cache := rfl

@[simp] theorem setProfileOf_queue (s : State) (m : Master) (a : Axis) (p : Profile) :
    (setProfileOf m a p s).queue = s.queue := rfl

@[simp] theorem setProfileOf_nextMoveId (s : State) (m : Master) (a : Axis) (p : Profile) :
    (setProfileOf m a p s).nextMoveId = s.nextMoveId := rfl

@[simp] theorem setProfileOf_blend (s : State) (m : Master) (a : Axis) (p : Profile) :
    (setProfileOf m a p s).blend = s.blend := rfl

@[simp] theorem setProfileOf_couplings (s : State) (m : Master) (a : Axis) (p : Profile) :
    (setProfileOf m a p s).couplings = s.couplings := rfl

@[simp] theorem setProfileOf_demand (s : State) (m : Master) (a : Axis) (p : Profile) :
    (setProfileOf m a p s).demand = s.demand := rfl

@[simp] theorem setProfileOf_clamped (s : State) (m : Master) (a : Axis) (p : Profile) :
    (setProfileOf m a p s).clamped = s.clamped := rfl

@[simp] theorem setProfileOf_armed (s : State) (m : Master) (a : Axis) (p : Profile) :
    (setProfileOf m a p s).armed = s.armed := rfl

@[simp] theorem setProfileOf_timecode (s : State) (m : Master) (a : Axis) (p : Profile) :
    (setProfileOf m a p s).timecode = s.timecode := rfl

@[simp] theorem setProfileOf_bus (s : State) (m : Master) (a : Axis) (p : Profile) :
    (setProfileOf m a p s).bus = s.bus := rfl

@[simp] theorem setProfileOf_faults (s : State) (m : Master) (a : Axis) (p : Profile) :
    (setProfileOf m a p s).faults = s.faults := rfl

@[simp] theorem setProfileOf_freeDraws (s : State) (m : Master) (a : Axis) (p : Profile) :
    (setProfileOf m a p s).freeDraws = s.freeDraws := rfl

/-! ### setLimitOf -/

@[simp] theorem setLimitOf_pending (s : State) (m : Master) (l : Option Nat) :
    (setLimitOf m l s).pending = s.pending := rfl

@[simp] theorem setLimitOf_timebase (s : State) (m : Master) (l : Option Nat) :
    (setLimitOf m l s).timebase = s.timebase := rfl

@[simp] theorem setLimitOf_startup (s : State) (m : Master) (l : Option Nat) :
    (setLimitOf m l s).startup = s.startup := rfl

@[simp] theorem setLimitOf_save (s : State) (m : Master) (l : Option Nat) :
    (setLimitOf m l s).save = s.save := rfl

@[simp] theorem setLimitOf_memory (s : State) (m : Master) (l : Option Nat) :
    (setLimitOf m l s).memory = s.memory := rfl

@[simp] theorem setLimitOf_store (s : State) (m : Master) (l : Option Nat) :
    (setLimitOf m l s).store = s.store := rfl

@[simp] theorem setLimitOf_ports (s : State) (m : Master) (l : Option Nat) :
    (setLimitOf m l s).ports = s.ports := rfl

@[simp] theorem setLimitOf_authority (s : State) (m : Master) (l : Option Nat) :
    (setLimitOf m l s).authority = s.authority := rfl

@[simp] theorem setLimitOf_joysticks (s : State) (m : Master) (l : Option Nat) :
    (setLimitOf m l s).joysticks = s.joysticks := rfl

@[simp] theorem setLimitOf_cache (s : State) (m : Master) (l : Option Nat) :
    (setLimitOf m l s).cache = s.cache := rfl

@[simp] theorem setLimitOf_queue (s : State) (m : Master) (l : Option Nat) :
    (setLimitOf m l s).queue = s.queue := rfl

@[simp] theorem setLimitOf_nextMoveId (s : State) (m : Master) (l : Option Nat) :
    (setLimitOf m l s).nextMoveId = s.nextMoveId := rfl

@[simp] theorem setLimitOf_blend (s : State) (m : Master) (l : Option Nat) :
    (setLimitOf m l s).blend = s.blend := rfl

@[simp] theorem setLimitOf_couplings (s : State) (m : Master) (l : Option Nat) :
    (setLimitOf m l s).couplings = s.couplings := rfl

@[simp] theorem setLimitOf_demand (s : State) (m : Master) (l : Option Nat) :
    (setLimitOf m l s).demand = s.demand := rfl

@[simp] theorem setLimitOf_clamped (s : State) (m : Master) (l : Option Nat) :
    (setLimitOf m l s).clamped = s.clamped := rfl

@[simp] theorem setLimitOf_armed (s : State) (m : Master) (l : Option Nat) :
    (setLimitOf m l s).armed = s.armed := rfl

@[simp] theorem setLimitOf_timecode (s : State) (m : Master) (l : Option Nat) :
    (setLimitOf m l s).timecode = s.timecode := rfl

@[simp] theorem setLimitOf_bus (s : State) (m : Master) (l : Option Nat) :
    (setLimitOf m l s).bus = s.bus := rfl

@[simp] theorem setLimitOf_faults (s : State) (m : Master) (l : Option Nat) :
    (setLimitOf m l s).faults = s.faults := rfl

@[simp] theorem setLimitOf_freeDraws (s : State) (m : Master) (l : Option Nat) :
    (setLimitOf m l s).freeDraws = s.freeDraws := rfl

/-! ### recordVerdicts -/

@[simp] theorem recordVerdicts_pending (s : State) (x : AxisSet) (v : Axis → Verdict) :
    (recordVerdicts x v s).pending = s.pending := rfl

@[simp] theorem recordVerdicts_timebase (s : State) (x : AxisSet) (v : Axis → Verdict) :
    (recordVerdicts x v s).timebase = s.timebase := rfl

@[simp] theorem recordVerdicts_startup (s : State) (x : AxisSet) (v : Axis → Verdict) :
    (recordVerdicts x v s).startup = s.startup := rfl

@[simp] theorem recordVerdicts_save (s : State) (x : AxisSet) (v : Axis → Verdict) :
    (recordVerdicts x v s).save = s.save := rfl

@[simp] theorem recordVerdicts_memory (s : State) (x : AxisSet) (v : Axis → Verdict) :
    (recordVerdicts x v s).memory = s.memory := rfl

@[simp] theorem recordVerdicts_settings (s : State) (x : AxisSet) (v : Axis → Verdict) :
    (recordVerdicts x v s).settings = s.settings := rfl

@[simp] theorem recordVerdicts_store (s : State) (x : AxisSet) (v : Axis → Verdict) :
    (recordVerdicts x v s).store = s.store := rfl

@[simp] theorem recordVerdicts_ports (s : State) (x : AxisSet) (v : Axis → Verdict) :
    (recordVerdicts x v s).ports = s.ports := rfl

@[simp] theorem recordVerdicts_joysticks (s : State) (x : AxisSet) (v : Axis → Verdict) :
    (recordVerdicts x v s).joysticks = s.joysticks := rfl

@[simp] theorem recordVerdicts_cache (s : State) (x : AxisSet) (v : Axis → Verdict) :
    (recordVerdicts x v s).cache = s.cache := rfl

@[simp] theorem recordVerdicts_queue (s : State) (x : AxisSet) (v : Axis → Verdict) :
    (recordVerdicts x v s).queue = s.queue := rfl

@[simp] theorem recordVerdicts_nextMoveId (s : State) (x : AxisSet) (v : Axis → Verdict) :
    (recordVerdicts x v s).nextMoveId = s.nextMoveId := rfl

@[simp] theorem recordVerdicts_blend (s : State) (x : AxisSet) (v : Axis → Verdict) :
    (recordVerdicts x v s).blend = s.blend := rfl

@[simp] theorem recordVerdicts_couplings (s : State) (x : AxisSet) (v : Axis → Verdict) :
    (recordVerdicts x v s).couplings = s.couplings := rfl

@[simp] theorem recordVerdicts_demand (s : State) (x : AxisSet) (v : Axis → Verdict) :
    (recordVerdicts x v s).demand = s.demand := rfl

@[simp] theorem recordVerdicts_clamped (s : State) (x : AxisSet) (v : Axis → Verdict) :
    (recordVerdicts x v s).clamped = s.clamped := rfl

@[simp] theorem recordVerdicts_armed (s : State) (x : AxisSet) (v : Axis → Verdict) :
    (recordVerdicts x v s).armed = s.armed := rfl

@[simp] theorem recordVerdicts_timecode (s : State) (x : AxisSet) (v : Axis → Verdict) :
    (recordVerdicts x v s).timecode = s.timecode := rfl

@[simp] theorem recordVerdicts_bus (s : State) (x : AxisSet) (v : Axis → Verdict) :
    (recordVerdicts x v s).bus = s.bus := rfl

@[simp] theorem recordVerdicts_faults (s : State) (x : AxisSet) (v : Axis → Verdict) :
    (recordVerdicts x v s).faults = s.faults := rfl

@[simp] theorem recordVerdicts_freeDraws (s : State) (x : AxisSet) (v : Axis → Verdict) :
    (recordVerdicts x v s).freeDraws = s.freeDraws := rfl

/-! ### disarmReleased -/

@[simp] theorem disarmReleased_pending (s : State) : (disarmReleased s).pending = s.pending := rfl

@[simp] theorem disarmReleased_timebase (s : State) :
    (disarmReleased s).timebase = s.timebase := rfl

@[simp] theorem disarmReleased_startup (s : State) : (disarmReleased s).startup = s.startup := rfl

@[simp] theorem disarmReleased_save (s : State) : (disarmReleased s).save = s.save := rfl

@[simp] theorem disarmReleased_memory (s : State) : (disarmReleased s).memory = s.memory := rfl

@[simp] theorem disarmReleased_settings (s : State) :
    (disarmReleased s).settings = s.settings := rfl

@[simp] theorem disarmReleased_store (s : State) : (disarmReleased s).store = s.store := rfl

@[simp] theorem disarmReleased_ports (s : State) : (disarmReleased s).ports = s.ports := rfl

@[simp] theorem disarmReleased_authority (s : State) :
    (disarmReleased s).authority = s.authority := rfl

@[simp] theorem disarmReleased_joysticks (s : State) :
    (disarmReleased s).joysticks = s.joysticks := rfl

@[simp] theorem disarmReleased_cache (s : State) : (disarmReleased s).cache = s.cache := rfl

@[simp] theorem disarmReleased_queue (s : State) : (disarmReleased s).queue = s.queue := rfl

@[simp] theorem disarmReleased_nextMoveId (s : State) :
    (disarmReleased s).nextMoveId = s.nextMoveId := rfl

@[simp] theorem disarmReleased_blend (s : State) : (disarmReleased s).blend = s.blend := rfl

@[simp] theorem disarmReleased_couplings (s : State) :
    (disarmReleased s).couplings = s.couplings := rfl

@[simp] theorem disarmReleased_demand (s : State) : (disarmReleased s).demand = s.demand := rfl

@[simp] theorem disarmReleased_clamped (s : State) : (disarmReleased s).clamped = s.clamped := rfl

@[simp] theorem disarmReleased_timecode (s : State) :
    (disarmReleased s).timecode = s.timecode := rfl

@[simp] theorem disarmReleased_bus (s : State) : (disarmReleased s).bus = s.bus := rfl

@[simp] theorem disarmReleased_faults (s : State) : (disarmReleased s).faults = s.faults := rfl

@[simp] theorem disarmReleased_freeDraws (s : State) :
    (disarmReleased s).freeDraws = s.freeDraws := rfl

/-! ### armZones -/

@[simp] theorem armZones_pending (s : State) : (armZones s).pending = s.pending := rfl

@[simp] theorem armZones_timebase (s : State) : (armZones s).timebase = s.timebase := rfl

@[simp] theorem armZones_startup (s : State) : (armZones s).startup = s.startup := rfl

@[simp] theorem armZones_save (s : State) : (armZones s).save = s.save := rfl

@[simp] theorem armZones_memory (s : State) : (armZones s).memory = s.memory := rfl

@[simp] theorem armZones_settings (s : State) : (armZones s).settings = s.settings := rfl

@[simp] theorem armZones_store (s : State) : (armZones s).store = s.store := rfl

@[simp] theorem armZones_ports (s : State) : (armZones s).ports = s.ports := rfl

@[simp] theorem armZones_authority (s : State) : (armZones s).authority = s.authority := rfl

@[simp] theorem armZones_joysticks (s : State) : (armZones s).joysticks = s.joysticks := rfl

@[simp] theorem armZones_cache (s : State) : (armZones s).cache = s.cache := rfl

@[simp] theorem armZones_queue (s : State) : (armZones s).queue = s.queue := rfl

@[simp] theorem armZones_nextMoveId (s : State) : (armZones s).nextMoveId = s.nextMoveId := rfl

@[simp] theorem armZones_blend (s : State) : (armZones s).blend = s.blend := rfl

@[simp] theorem armZones_couplings (s : State) : (armZones s).couplings = s.couplings := rfl

@[simp] theorem armZones_demand (s : State) : (armZones s).demand = s.demand := rfl

@[simp] theorem armZones_clamped (s : State) : (armZones s).clamped = s.clamped := rfl

@[simp] theorem armZones_timecode (s : State) : (armZones s).timecode = s.timecode := rfl

@[simp] theorem armZones_bus (s : State) : (armZones s).bus = s.bus := rfl

@[simp] theorem armZones_faults (s : State) : (armZones s).faults = s.faults := rfl

@[simp] theorem armZones_freeDraws (s : State) : (armZones s).freeDraws = s.freeDraws := rfl

/-! ### releasedTracking -/

@[simp] theorem releasedTracking_pending (s : State) (x : AxisSet) (k : PerAxis Int) :
    (releasedTracking x k s).pending = s.pending := rfl

@[simp] theorem releasedTracking_timebase (s : State) (x : AxisSet) (k : PerAxis Int) :
    (releasedTracking x k s).timebase = s.timebase := rfl

@[simp] theorem releasedTracking_startup (s : State) (x : AxisSet) (k : PerAxis Int) :
    (releasedTracking x k s).startup = s.startup := rfl

@[simp] theorem releasedTracking_save (s : State) (x : AxisSet) (k : PerAxis Int) :
    (releasedTracking x k s).save = s.save := rfl

@[simp] theorem releasedTracking_memory (s : State) (x : AxisSet) (k : PerAxis Int) :
    (releasedTracking x k s).memory = s.memory := rfl

@[simp] theorem releasedTracking_settings (s : State) (x : AxisSet) (k : PerAxis Int) :
    (releasedTracking x k s).settings = s.settings := rfl

@[simp] theorem releasedTracking_store (s : State) (x : AxisSet) (k : PerAxis Int) :
    (releasedTracking x k s).store = s.store := rfl

@[simp] theorem releasedTracking_ports (s : State) (x : AxisSet) (k : PerAxis Int) :
    (releasedTracking x k s).ports = s.ports := rfl

@[simp] theorem releasedTracking_authority (s : State) (x : AxisSet) (k : PerAxis Int) :
    (releasedTracking x k s).authority = s.authority := rfl

@[simp] theorem releasedTracking_joysticks (s : State) (x : AxisSet) (k : PerAxis Int) :
    (releasedTracking x k s).joysticks = s.joysticks := rfl

@[simp] theorem releasedTracking_cache (s : State) (x : AxisSet) (k : PerAxis Int) :
    (releasedTracking x k s).cache = s.cache := rfl

@[simp] theorem releasedTracking_queue (s : State) (x : AxisSet) (k : PerAxis Int) :
    (releasedTracking x k s).queue = s.queue := rfl

@[simp] theorem releasedTracking_nextMoveId (s : State) (x : AxisSet) (k : PerAxis Int) :
    (releasedTracking x k s).nextMoveId = s.nextMoveId := rfl

@[simp] theorem releasedTracking_couplings (s : State) (x : AxisSet) (k : PerAxis Int) :
    (releasedTracking x k s).couplings = s.couplings := rfl

@[simp] theorem releasedTracking_armed (s : State) (x : AxisSet) (k : PerAxis Int) :
    (releasedTracking x k s).armed = s.armed := rfl

@[simp] theorem releasedTracking_timecode (s : State) (x : AxisSet) (k : PerAxis Int) :
    (releasedTracking x k s).timecode = s.timecode := rfl

@[simp] theorem releasedTracking_bus (s : State) (x : AxisSet) (k : PerAxis Int) :
    (releasedTracking x k s).bus = s.bus := rfl

@[simp] theorem releasedTracking_faults (s : State) (x : AxisSet) (k : PerAxis Int) :
    (releasedTracking x k s).faults = s.faults := rfl

@[simp] theorem releasedTracking_freeDraws (s : State) (x : AxisSet) (k : PerAxis Int) :
    (releasedTracking x k s).freeDraws = s.freeDraws := rfl

/-! ### writeDemands -/

@[simp] theorem writeDemands_pending (s : State) (x : AxisSet) (k d : PerAxis Int) :
    (writeDemands x k d s).pending = s.pending := rfl

@[simp] theorem writeDemands_timebase (s : State) (x : AxisSet) (k d : PerAxis Int) :
    (writeDemands x k d s).timebase = s.timebase := rfl

@[simp] theorem writeDemands_startup (s : State) (x : AxisSet) (k d : PerAxis Int) :
    (writeDemands x k d s).startup = s.startup := rfl

@[simp] theorem writeDemands_save (s : State) (x : AxisSet) (k d : PerAxis Int) :
    (writeDemands x k d s).save = s.save := rfl

@[simp] theorem writeDemands_memory (s : State) (x : AxisSet) (k d : PerAxis Int) :
    (writeDemands x k d s).memory = s.memory := rfl

@[simp] theorem writeDemands_settings (s : State) (x : AxisSet) (k d : PerAxis Int) :
    (writeDemands x k d s).settings = s.settings := rfl

@[simp] theorem writeDemands_store (s : State) (x : AxisSet) (k d : PerAxis Int) :
    (writeDemands x k d s).store = s.store := rfl

@[simp] theorem writeDemands_ports (s : State) (x : AxisSet) (k d : PerAxis Int) :
    (writeDemands x k d s).ports = s.ports := rfl

@[simp] theorem writeDemands_authority (s : State) (x : AxisSet) (k d : PerAxis Int) :
    (writeDemands x k d s).authority = s.authority := rfl

@[simp] theorem writeDemands_joysticks (s : State) (x : AxisSet) (k d : PerAxis Int) :
    (writeDemands x k d s).joysticks = s.joysticks := rfl

@[simp] theorem writeDemands_cache (s : State) (x : AxisSet) (k d : PerAxis Int) :
    (writeDemands x k d s).cache = s.cache := rfl

@[simp] theorem writeDemands_queue (s : State) (x : AxisSet) (k d : PerAxis Int) :
    (writeDemands x k d s).queue = s.queue := rfl

@[simp] theorem writeDemands_nextMoveId (s : State) (x : AxisSet) (k d : PerAxis Int) :
    (writeDemands x k d s).nextMoveId = s.nextMoveId := rfl

@[simp] theorem writeDemands_couplings (s : State) (x : AxisSet) (k d : PerAxis Int) :
    (writeDemands x k d s).couplings = s.couplings := rfl

@[simp] theorem writeDemands_clamped (s : State) (x : AxisSet) (k d : PerAxis Int) :
    (writeDemands x k d s).clamped = s.clamped := rfl

@[simp] theorem writeDemands_armed (s : State) (x : AxisSet) (k d : PerAxis Int) :
    (writeDemands x k d s).armed = s.armed := rfl

@[simp] theorem writeDemands_timecode (s : State) (x : AxisSet) (k d : PerAxis Int) :
    (writeDemands x k d s).timecode = s.timecode := rfl

@[simp] theorem writeDemands_bus (s : State) (x : AxisSet) (k d : PerAxis Int) :
    (writeDemands x k d s).bus = s.bus := rfl

@[simp] theorem writeDemands_faults (s : State) (x : AxisSet) (k d : PerAxis Int) :
    (writeDemands x k d s).faults = s.faults := rfl

@[simp] theorem writeDemands_freeDraws (s : State) (x : AxisSet) (k d : PerAxis Int) :
    (writeDemands x k d s).freeDraws = s.freeDraws := rfl

/-! ### refit -/

@[simp] theorem refit_pending (s : State) (x : AxisSet) : (refit x s).pending = s.pending := rfl

@[simp] theorem refit_timebase (s : State) (x : AxisSet) : (refit x s).timebase = s.timebase := rfl

@[simp] theorem refit_startup (s : State) (x : AxisSet) : (refit x s).startup = s.startup := rfl

@[simp] theorem refit_save (s : State) (x : AxisSet) : (refit x s).save = s.save := rfl

@[simp] theorem refit_memory (s : State) (x : AxisSet) : (refit x s).memory = s.memory := rfl

@[simp] theorem refit_store (s : State) (x : AxisSet) : (refit x s).store = s.store := rfl

@[simp] theorem refit_ports (s : State) (x : AxisSet) : (refit x s).ports = s.ports := rfl

@[simp] theorem refit_authority (s : State) (x : AxisSet) :
    (refit x s).authority = s.authority := rfl

@[simp] theorem refit_joysticks (s : State) (x : AxisSet) :
    (refit x s).joysticks = s.joysticks := rfl

@[simp] theorem refit_cache (s : State) (x : AxisSet) : (refit x s).cache = s.cache := rfl

@[simp] theorem refit_queue (s : State) (x : AxisSet) : (refit x s).queue = s.queue := rfl

@[simp] theorem refit_nextMoveId (s : State) (x : AxisSet) :
    (refit x s).nextMoveId = s.nextMoveId := rfl

@[simp] theorem refit_blend (s : State) (x : AxisSet) : (refit x s).blend = s.blend := rfl

@[simp] theorem refit_couplings (s : State) (x : AxisSet) :
    (refit x s).couplings = s.couplings := rfl

@[simp] theorem refit_demand (s : State) (x : AxisSet) : (refit x s).demand = s.demand := rfl

@[simp] theorem refit_clamped (s : State) (x : AxisSet) : (refit x s).clamped = s.clamped := rfl

@[simp] theorem refit_timecode (s : State) (x : AxisSet) : (refit x s).timecode = s.timecode := rfl

@[simp] theorem refit_bus (s : State) (x : AxisSet) : (refit x s).bus = s.bus := rfl

@[simp] theorem refit_faults (s : State) (x : AxisSet) : (refit x s).faults = s.faults := rfl

@[simp] theorem refit_freeDraws (s : State) (x : AxisSet) :
    (refit x s).freeDraws = s.freeDraws := rfl

/-! ### relimit -/

@[simp] theorem relimit_pending (s : State) (a : Axis) (l : Limits) :
    (relimit a l s).pending = s.pending := rfl

@[simp] theorem relimit_timebase (s : State) (a : Axis) (l : Limits) :
    (relimit a l s).timebase = s.timebase := rfl

@[simp] theorem relimit_startup (s : State) (a : Axis) (l : Limits) :
    (relimit a l s).startup = s.startup := rfl

@[simp] theorem relimit_save (s : State) (a : Axis) (l : Limits) :
    (relimit a l s).save = s.save := rfl

@[simp] theorem relimit_memory (s : State) (a : Axis) (l : Limits) :
    (relimit a l s).memory = s.memory := rfl

@[simp] theorem relimit_store (s : State) (a : Axis) (l : Limits) :
    (relimit a l s).store = s.store := rfl

@[simp] theorem relimit_ports (s : State) (a : Axis) (l : Limits) :
    (relimit a l s).ports = s.ports := rfl

@[simp] theorem relimit_authority (s : State) (a : Axis) (l : Limits) :
    (relimit a l s).authority = s.authority := rfl

@[simp] theorem relimit_joysticks (s : State) (a : Axis) (l : Limits) :
    (relimit a l s).joysticks = s.joysticks := rfl

@[simp] theorem relimit_cache (s : State) (a : Axis) (l : Limits) :
    (relimit a l s).cache = s.cache := rfl

@[simp] theorem relimit_queue (s : State) (a : Axis) (l : Limits) :
    (relimit a l s).queue = s.queue := rfl

@[simp] theorem relimit_nextMoveId (s : State) (a : Axis) (l : Limits) :
    (relimit a l s).nextMoveId = s.nextMoveId := rfl

@[simp] theorem relimit_couplings (s : State) (a : Axis) (l : Limits) :
    (relimit a l s).couplings = s.couplings := rfl

@[simp] theorem relimit_demand (s : State) (a : Axis) (l : Limits) :
    (relimit a l s).demand = s.demand := rfl

@[simp] theorem relimit_clamped (s : State) (a : Axis) (l : Limits) :
    (relimit a l s).clamped = s.clamped := rfl

@[simp] theorem relimit_armed (s : State) (a : Axis) (l : Limits) :
    (relimit a l s).armed = s.armed := rfl

@[simp] theorem relimit_timecode (s : State) (a : Axis) (l : Limits) :
    (relimit a l s).timecode = s.timecode := rfl

@[simp] theorem relimit_faults (s : State) (a : Axis) (l : Limits) :
    (relimit a l s).faults = s.faults := rfl

@[simp] theorem relimit_freeDraws (s : State) (a : Axis) (l : Limits) :
    (relimit a l s).freeDraws = s.freeDraws := rfl

/-! ### rezone -/

@[simp] theorem rezone_pending (s : State) (n : Fin 8) (z : ZoneSetting) :
    (rezone n z s).pending = s.pending := rfl

@[simp] theorem rezone_timebase (s : State) (n : Fin 8) (z : ZoneSetting) :
    (rezone n z s).timebase = s.timebase := rfl

@[simp] theorem rezone_startup (s : State) (n : Fin 8) (z : ZoneSetting) :
    (rezone n z s).startup = s.startup := rfl

@[simp] theorem rezone_save (s : State) (n : Fin 8) (z : ZoneSetting) :
    (rezone n z s).save = s.save := rfl

@[simp] theorem rezone_memory (s : State) (n : Fin 8) (z : ZoneSetting) :
    (rezone n z s).memory = s.memory := rfl

@[simp] theorem rezone_store (s : State) (n : Fin 8) (z : ZoneSetting) :
    (rezone n z s).store = s.store := rfl

@[simp] theorem rezone_ports (s : State) (n : Fin 8) (z : ZoneSetting) :
    (rezone n z s).ports = s.ports := rfl

@[simp] theorem rezone_authority (s : State) (n : Fin 8) (z : ZoneSetting) :
    (rezone n z s).authority = s.authority := rfl

@[simp] theorem rezone_joysticks (s : State) (n : Fin 8) (z : ZoneSetting) :
    (rezone n z s).joysticks = s.joysticks := rfl

@[simp] theorem rezone_cache (s : State) (n : Fin 8) (z : ZoneSetting) :
    (rezone n z s).cache = s.cache := rfl

@[simp] theorem rezone_queue (s : State) (n : Fin 8) (z : ZoneSetting) :
    (rezone n z s).queue = s.queue := rfl

@[simp] theorem rezone_nextMoveId (s : State) (n : Fin 8) (z : ZoneSetting) :
    (rezone n z s).nextMoveId = s.nextMoveId := rfl

@[simp] theorem rezone_blend (s : State) (n : Fin 8) (z : ZoneSetting) :
    (rezone n z s).blend = s.blend := rfl

@[simp] theorem rezone_couplings (s : State) (n : Fin 8) (z : ZoneSetting) :
    (rezone n z s).couplings = s.couplings := rfl

@[simp] theorem rezone_demand (s : State) (n : Fin 8) (z : ZoneSetting) :
    (rezone n z s).demand = s.demand := rfl

@[simp] theorem rezone_clamped (s : State) (n : Fin 8) (z : ZoneSetting) :
    (rezone n z s).clamped = s.clamped := rfl

@[simp] theorem rezone_timecode (s : State) (n : Fin 8) (z : ZoneSetting) :
    (rezone n z s).timecode = s.timecode := rfl

@[simp] theorem rezone_bus (s : State) (n : Fin 8) (z : ZoneSetting) :
    (rezone n z s).bus = s.bus := rfl

@[simp] theorem rezone_faults (s : State) (n : Fin 8) (z : ZoneSetting) :
    (rezone n z s).faults = s.faults := rfl

@[simp] theorem rezone_freeDraws (s : State) (n : Fin 8) (z : ZoneSetting) :
    (rezone n z s).freeDraws = s.freeDraws := rfl

/-! ### updateDrives -/

@[simp] theorem updateDrives_pending (s : State) (f : Axis → Drive → Drive) :
    (updateDrives f s).pending = s.pending := rfl

@[simp] theorem updateDrives_timebase (s : State) (f : Axis → Drive → Drive) :
    (updateDrives f s).timebase = s.timebase := rfl

@[simp] theorem updateDrives_startup (s : State) (f : Axis → Drive → Drive) :
    (updateDrives f s).startup = s.startup := rfl

@[simp] theorem updateDrives_save (s : State) (f : Axis → Drive → Drive) :
    (updateDrives f s).save = s.save := rfl

@[simp] theorem updateDrives_memory (s : State) (f : Axis → Drive → Drive) :
    (updateDrives f s).memory = s.memory := rfl

@[simp] theorem updateDrives_settings (s : State) (f : Axis → Drive → Drive) :
    (updateDrives f s).settings = s.settings := rfl

@[simp] theorem updateDrives_store (s : State) (f : Axis → Drive → Drive) :
    (updateDrives f s).store = s.store := rfl

@[simp] theorem updateDrives_ports (s : State) (f : Axis → Drive → Drive) :
    (updateDrives f s).ports = s.ports := rfl

@[simp] theorem updateDrives_authority (s : State) (f : Axis → Drive → Drive) :
    (updateDrives f s).authority = s.authority := rfl

@[simp] theorem updateDrives_joysticks (s : State) (f : Axis → Drive → Drive) :
    (updateDrives f s).joysticks = s.joysticks := rfl

@[simp] theorem updateDrives_cache (s : State) (f : Axis → Drive → Drive) :
    (updateDrives f s).cache = s.cache := rfl

@[simp] theorem updateDrives_queue (s : State) (f : Axis → Drive → Drive) :
    (updateDrives f s).queue = s.queue := rfl

@[simp] theorem updateDrives_nextMoveId (s : State) (f : Axis → Drive → Drive) :
    (updateDrives f s).nextMoveId = s.nextMoveId := rfl

@[simp] theorem updateDrives_blend (s : State) (f : Axis → Drive → Drive) :
    (updateDrives f s).blend = s.blend := rfl

@[simp] theorem updateDrives_couplings (s : State) (f : Axis → Drive → Drive) :
    (updateDrives f s).couplings = s.couplings := rfl

@[simp] theorem updateDrives_demand (s : State) (f : Axis → Drive → Drive) :
    (updateDrives f s).demand = s.demand := rfl

@[simp] theorem updateDrives_clamped (s : State) (f : Axis → Drive → Drive) :
    (updateDrives f s).clamped = s.clamped := rfl

@[simp] theorem updateDrives_armed (s : State) (f : Axis → Drive → Drive) :
    (updateDrives f s).armed = s.armed := rfl

@[simp] theorem updateDrives_timecode (s : State) (f : Axis → Drive → Drive) :
    (updateDrives f s).timecode = s.timecode := rfl

@[simp] theorem updateDrives_faults (s : State) (f : Axis → Drive → Drive) :
    (updateDrives f s).faults = s.faults := rfl

@[simp] theorem updateDrives_freeDraws (s : State) (f : Axis → Drive → Drive) :
    (updateDrives f s).freeDraws = s.freeDraws := rfl

/-! ### setDrive -/

@[simp] theorem setDrive_pending (s : State) (a : Axis) (d : Drive) :
    (setDrive a d s).pending = s.pending := rfl

@[simp] theorem setDrive_timebase (s : State) (a : Axis) (d : Drive) :
    (setDrive a d s).timebase = s.timebase := rfl

@[simp] theorem setDrive_startup (s : State) (a : Axis) (d : Drive) :
    (setDrive a d s).startup = s.startup := rfl

@[simp] theorem setDrive_save (s : State) (a : Axis) (d : Drive) :
    (setDrive a d s).save = s.save := rfl

@[simp] theorem setDrive_memory (s : State) (a : Axis) (d : Drive) :
    (setDrive a d s).memory = s.memory := rfl

@[simp] theorem setDrive_settings (s : State) (a : Axis) (d : Drive) :
    (setDrive a d s).settings = s.settings := rfl

@[simp] theorem setDrive_store (s : State) (a : Axis) (d : Drive) :
    (setDrive a d s).store = s.store := rfl

@[simp] theorem setDrive_ports (s : State) (a : Axis) (d : Drive) :
    (setDrive a d s).ports = s.ports := rfl

@[simp] theorem setDrive_authority (s : State) (a : Axis) (d : Drive) :
    (setDrive a d s).authority = s.authority := rfl

@[simp] theorem setDrive_joysticks (s : State) (a : Axis) (d : Drive) :
    (setDrive a d s).joysticks = s.joysticks := rfl

@[simp] theorem setDrive_cache (s : State) (a : Axis) (d : Drive) :
    (setDrive a d s).cache = s.cache := rfl

@[simp] theorem setDrive_queue (s : State) (a : Axis) (d : Drive) :
    (setDrive a d s).queue = s.queue := rfl

@[simp] theorem setDrive_nextMoveId (s : State) (a : Axis) (d : Drive) :
    (setDrive a d s).nextMoveId = s.nextMoveId := rfl

@[simp] theorem setDrive_blend (s : State) (a : Axis) (d : Drive) :
    (setDrive a d s).blend = s.blend := rfl

@[simp] theorem setDrive_couplings (s : State) (a : Axis) (d : Drive) :
    (setDrive a d s).couplings = s.couplings := rfl

@[simp] theorem setDrive_demand (s : State) (a : Axis) (d : Drive) :
    (setDrive a d s).demand = s.demand := rfl

@[simp] theorem setDrive_clamped (s : State) (a : Axis) (d : Drive) :
    (setDrive a d s).clamped = s.clamped := rfl

@[simp] theorem setDrive_armed (s : State) (a : Axis) (d : Drive) :
    (setDrive a d s).armed = s.armed := rfl

@[simp] theorem setDrive_timecode (s : State) (a : Axis) (d : Drive) :
    (setDrive a d s).timecode = s.timecode := rfl

@[simp] theorem setDrive_faults (s : State) (a : Axis) (d : Drive) :
    (setDrive a d s).faults = s.faults := rfl

@[simp] theorem setDrive_freeDraws (s : State) (a : Axis) (d : Drive) :
    (setDrive a d s).freeDraws = s.freeDraws := rfl

/-! ### writeEnables -/

@[simp] theorem writeEnables_pending (s : State) (x : AxisSet) (e : DriveEnable) :
    (writeEnables x e s).pending = s.pending := rfl

@[simp] theorem writeEnables_timebase (s : State) (x : AxisSet) (e : DriveEnable) :
    (writeEnables x e s).timebase = s.timebase := rfl

@[simp] theorem writeEnables_startup (s : State) (x : AxisSet) (e : DriveEnable) :
    (writeEnables x e s).startup = s.startup := rfl

@[simp] theorem writeEnables_save (s : State) (x : AxisSet) (e : DriveEnable) :
    (writeEnables x e s).save = s.save := rfl

@[simp] theorem writeEnables_memory (s : State) (x : AxisSet) (e : DriveEnable) :
    (writeEnables x e s).memory = s.memory := rfl

@[simp] theorem writeEnables_settings (s : State) (x : AxisSet) (e : DriveEnable) :
    (writeEnables x e s).settings = s.settings := rfl

@[simp] theorem writeEnables_store (s : State) (x : AxisSet) (e : DriveEnable) :
    (writeEnables x e s).store = s.store := rfl

@[simp] theorem writeEnables_ports (s : State) (x : AxisSet) (e : DriveEnable) :
    (writeEnables x e s).ports = s.ports := rfl

@[simp] theorem writeEnables_authority (s : State) (x : AxisSet) (e : DriveEnable) :
    (writeEnables x e s).authority = s.authority := rfl

@[simp] theorem writeEnables_joysticks (s : State) (x : AxisSet) (e : DriveEnable) :
    (writeEnables x e s).joysticks = s.joysticks := rfl

@[simp] theorem writeEnables_cache (s : State) (x : AxisSet) (e : DriveEnable) :
    (writeEnables x e s).cache = s.cache := rfl

@[simp] theorem writeEnables_queue (s : State) (x : AxisSet) (e : DriveEnable) :
    (writeEnables x e s).queue = s.queue := rfl

@[simp] theorem writeEnables_nextMoveId (s : State) (x : AxisSet) (e : DriveEnable) :
    (writeEnables x e s).nextMoveId = s.nextMoveId := rfl

@[simp] theorem writeEnables_blend (s : State) (x : AxisSet) (e : DriveEnable) :
    (writeEnables x e s).blend = s.blend := rfl

@[simp] theorem writeEnables_couplings (s : State) (x : AxisSet) (e : DriveEnable) :
    (writeEnables x e s).couplings = s.couplings := rfl

@[simp] theorem writeEnables_demand (s : State) (x : AxisSet) (e : DriveEnable) :
    (writeEnables x e s).demand = s.demand := rfl

@[simp] theorem writeEnables_clamped (s : State) (x : AxisSet) (e : DriveEnable) :
    (writeEnables x e s).clamped = s.clamped := rfl

@[simp] theorem writeEnables_armed (s : State) (x : AxisSet) (e : DriveEnable) :
    (writeEnables x e s).armed = s.armed := rfl

@[simp] theorem writeEnables_timecode (s : State) (x : AxisSet) (e : DriveEnable) :
    (writeEnables x e s).timecode = s.timecode := rfl

@[simp] theorem writeEnables_faults (s : State) (x : AxisSet) (e : DriveEnable) :
    (writeEnables x e s).faults = s.faults := rfl

@[simp] theorem writeEnables_freeDraws (s : State) (x : AxisSet) (e : DriveEnable) :
    (writeEnables x e s).freeDraws = s.freeDraws := rfl

/-! ### transmit -/

@[simp] theorem transmit_pending (s : State) : (transmit s).pending = s.pending := rfl

@[simp] theorem transmit_timebase (s : State) : (transmit s).timebase = s.timebase := rfl

@[simp] theorem transmit_startup (s : State) : (transmit s).startup = s.startup := rfl

@[simp] theorem transmit_save (s : State) : (transmit s).save = s.save := rfl

@[simp] theorem transmit_memory (s : State) : (transmit s).memory = s.memory := rfl

@[simp] theorem transmit_settings (s : State) : (transmit s).settings = s.settings := rfl

@[simp] theorem transmit_store (s : State) : (transmit s).store = s.store := rfl

@[simp] theorem transmit_ports (s : State) : (transmit s).ports = s.ports := rfl

@[simp] theorem transmit_authority (s : State) : (transmit s).authority = s.authority := rfl

@[simp] theorem transmit_joysticks (s : State) : (transmit s).joysticks = s.joysticks := rfl

@[simp] theorem transmit_cache (s : State) : (transmit s).cache = s.cache := rfl

@[simp] theorem transmit_queue (s : State) : (transmit s).queue = s.queue := rfl

@[simp] theorem transmit_nextMoveId (s : State) : (transmit s).nextMoveId = s.nextMoveId := rfl

@[simp] theorem transmit_blend (s : State) : (transmit s).blend = s.blend := rfl

@[simp] theorem transmit_couplings (s : State) : (transmit s).couplings = s.couplings := rfl

@[simp] theorem transmit_demand (s : State) : (transmit s).demand = s.demand := rfl

@[simp] theorem transmit_clamped (s : State) : (transmit s).clamped = s.clamped := rfl

@[simp] theorem transmit_armed (s : State) : (transmit s).armed = s.armed := rfl

@[simp] theorem transmit_timecode (s : State) : (transmit s).timecode = s.timecode := rfl

@[simp] theorem transmit_faults (s : State) : (transmit s).faults = s.faults := rfl

@[simp] theorem transmit_freeDraws (s : State) : (transmit s).freeDraws = s.freeDraws := rfl

/-! ### receive -/

@[simp] theorem receive_pending (s : State) (w : PerAxis (Option FeedbackWord)) :
    (receive w s).pending = s.pending := rfl

@[simp] theorem receive_timebase (s : State) (w : PerAxis (Option FeedbackWord)) :
    (receive w s).timebase = s.timebase := rfl

@[simp] theorem receive_startup (s : State) (w : PerAxis (Option FeedbackWord)) :
    (receive w s).startup = s.startup := rfl

@[simp] theorem receive_save (s : State) (w : PerAxis (Option FeedbackWord)) :
    (receive w s).save = s.save := rfl

@[simp] theorem receive_memory (s : State) (w : PerAxis (Option FeedbackWord)) :
    (receive w s).memory = s.memory := rfl

@[simp] theorem receive_settings (s : State) (w : PerAxis (Option FeedbackWord)) :
    (receive w s).settings = s.settings := rfl

@[simp] theorem receive_store (s : State) (w : PerAxis (Option FeedbackWord)) :
    (receive w s).store = s.store := rfl

@[simp] theorem receive_ports (s : State) (w : PerAxis (Option FeedbackWord)) :
    (receive w s).ports = s.ports := rfl

@[simp] theorem receive_authority (s : State) (w : PerAxis (Option FeedbackWord)) :
    (receive w s).authority = s.authority := rfl

@[simp] theorem receive_joysticks (s : State) (w : PerAxis (Option FeedbackWord)) :
    (receive w s).joysticks = s.joysticks := rfl

@[simp] theorem receive_cache (s : State) (w : PerAxis (Option FeedbackWord)) :
    (receive w s).cache = s.cache := rfl

@[simp] theorem receive_queue (s : State) (w : PerAxis (Option FeedbackWord)) :
    (receive w s).queue = s.queue := rfl

@[simp] theorem receive_nextMoveId (s : State) (w : PerAxis (Option FeedbackWord)) :
    (receive w s).nextMoveId = s.nextMoveId := rfl

@[simp] theorem receive_blend (s : State) (w : PerAxis (Option FeedbackWord)) :
    (receive w s).blend = s.blend := rfl

@[simp] theorem receive_couplings (s : State) (w : PerAxis (Option FeedbackWord)) :
    (receive w s).couplings = s.couplings := rfl

@[simp] theorem receive_demand (s : State) (w : PerAxis (Option FeedbackWord)) :
    (receive w s).demand = s.demand := rfl

@[simp] theorem receive_clamped (s : State) (w : PerAxis (Option FeedbackWord)) :
    (receive w s).clamped = s.clamped := rfl

@[simp] theorem receive_armed (s : State) (w : PerAxis (Option FeedbackWord)) :
    (receive w s).armed = s.armed := rfl

@[simp] theorem receive_timecode (s : State) (w : PerAxis (Option FeedbackWord)) :
    (receive w s).timecode = s.timecode := rfl

@[simp] theorem receive_faults (s : State) (w : PerAxis (Option FeedbackWord)) :
    (receive w s).faults = s.faults := rfl

@[simp] theorem receive_freeDraws (s : State) (w : PerAxis (Option FeedbackWord)) :
    (receive w s).freeDraws = s.freeDraws := rfl

/-! ### countFrame -/

@[simp] theorem countFrame_pending (s : State) : (countFrame s).pending = s.pending := rfl

@[simp] theorem countFrame_timebase (s : State) : (countFrame s).timebase = s.timebase := rfl

@[simp] theorem countFrame_startup (s : State) : (countFrame s).startup = s.startup := rfl

@[simp] theorem countFrame_save (s : State) : (countFrame s).save = s.save := rfl

@[simp] theorem countFrame_memory (s : State) : (countFrame s).memory = s.memory := rfl

@[simp] theorem countFrame_settings (s : State) : (countFrame s).settings = s.settings := rfl

@[simp] theorem countFrame_store (s : State) : (countFrame s).store = s.store := rfl

@[simp] theorem countFrame_ports (s : State) : (countFrame s).ports = s.ports := rfl

@[simp] theorem countFrame_authority (s : State) : (countFrame s).authority = s.authority := rfl

@[simp] theorem countFrame_joysticks (s : State) : (countFrame s).joysticks = s.joysticks := rfl

@[simp] theorem countFrame_cache (s : State) : (countFrame s).cache = s.cache := rfl

@[simp] theorem countFrame_queue (s : State) : (countFrame s).queue = s.queue := rfl

@[simp] theorem countFrame_nextMoveId (s : State) : (countFrame s).nextMoveId = s.nextMoveId := rfl

@[simp] theorem countFrame_blend (s : State) : (countFrame s).blend = s.blend := rfl

@[simp] theorem countFrame_couplings (s : State) : (countFrame s).couplings = s.couplings := rfl

@[simp] theorem countFrame_demand (s : State) : (countFrame s).demand = s.demand := rfl

@[simp] theorem countFrame_clamped (s : State) : (countFrame s).clamped = s.clamped := rfl

@[simp] theorem countFrame_armed (s : State) : (countFrame s).armed = s.armed := rfl

@[simp] theorem countFrame_timecode (s : State) : (countFrame s).timecode = s.timecode := rfl

@[simp] theorem countFrame_faults (s : State) : (countFrame s).faults = s.faults := rfl

@[simp] theorem countFrame_freeDraws (s : State) : (countFrame s).freeDraws = s.freeDraws := rfl

/-! ### takeEdge -/

@[simp] theorem takeEdge_pending (s : State) : (takeEdge s).pending = s.pending := rfl

@[simp] theorem takeEdge_timebase (s : State) : (takeEdge s).timebase = s.timebase := rfl

@[simp] theorem takeEdge_startup (s : State) : (takeEdge s).startup = s.startup := rfl

@[simp] theorem takeEdge_save (s : State) : (takeEdge s).save = s.save := rfl

@[simp] theorem takeEdge_memory (s : State) : (takeEdge s).memory = s.memory := rfl

@[simp] theorem takeEdge_settings (s : State) : (takeEdge s).settings = s.settings := rfl

@[simp] theorem takeEdge_store (s : State) : (takeEdge s).store = s.store := rfl

@[simp] theorem takeEdge_ports (s : State) : (takeEdge s).ports = s.ports := rfl

@[simp] theorem takeEdge_authority (s : State) : (takeEdge s).authority = s.authority := rfl

@[simp] theorem takeEdge_joysticks (s : State) : (takeEdge s).joysticks = s.joysticks := rfl

@[simp] theorem takeEdge_cache (s : State) : (takeEdge s).cache = s.cache := rfl

@[simp] theorem takeEdge_queue (s : State) : (takeEdge s).queue = s.queue := rfl

@[simp] theorem takeEdge_nextMoveId (s : State) : (takeEdge s).nextMoveId = s.nextMoveId := rfl

@[simp] theorem takeEdge_blend (s : State) : (takeEdge s).blend = s.blend := rfl

@[simp] theorem takeEdge_couplings (s : State) : (takeEdge s).couplings = s.couplings := rfl

@[simp] theorem takeEdge_demand (s : State) : (takeEdge s).demand = s.demand := rfl

@[simp] theorem takeEdge_clamped (s : State) : (takeEdge s).clamped = s.clamped := rfl

@[simp] theorem takeEdge_armed (s : State) : (takeEdge s).armed = s.armed := rfl

@[simp] theorem takeEdge_timecode (s : State) : (takeEdge s).timecode = s.timecode := rfl

@[simp] theorem takeEdge_faults (s : State) : (takeEdge s).faults = s.faults := rfl

@[simp] theorem takeEdge_freeDraws (s : State) : (takeEdge s).freeDraws = s.freeDraws := rfl

/-! ### startBus -/

@[simp] theorem startBus_pending (s : State) : (startBus s).pending = s.pending := rfl

@[simp] theorem startBus_timebase (s : State) : (startBus s).timebase = s.timebase := rfl

@[simp] theorem startBus_startup (s : State) : (startBus s).startup = s.startup := rfl

@[simp] theorem startBus_save (s : State) : (startBus s).save = s.save := rfl

@[simp] theorem startBus_memory (s : State) : (startBus s).memory = s.memory := rfl

@[simp] theorem startBus_settings (s : State) : (startBus s).settings = s.settings := rfl

@[simp] theorem startBus_store (s : State) : (startBus s).store = s.store := rfl

@[simp] theorem startBus_ports (s : State) : (startBus s).ports = s.ports := rfl

@[simp] theorem startBus_authority (s : State) : (startBus s).authority = s.authority := rfl

@[simp] theorem startBus_joysticks (s : State) : (startBus s).joysticks = s.joysticks := rfl

@[simp] theorem startBus_cache (s : State) : (startBus s).cache = s.cache := rfl

@[simp] theorem startBus_queue (s : State) : (startBus s).queue = s.queue := rfl

@[simp] theorem startBus_nextMoveId (s : State) : (startBus s).nextMoveId = s.nextMoveId := rfl

@[simp] theorem startBus_blend (s : State) : (startBus s).blend = s.blend := rfl

@[simp] theorem startBus_couplings (s : State) : (startBus s).couplings = s.couplings := rfl

@[simp] theorem startBus_demand (s : State) : (startBus s).demand = s.demand := rfl

@[simp] theorem startBus_clamped (s : State) : (startBus s).clamped = s.clamped := rfl

@[simp] theorem startBus_armed (s : State) : (startBus s).armed = s.armed := rfl

@[simp] theorem startBus_timecode (s : State) : (startBus s).timecode = s.timecode := rfl

@[simp] theorem startBus_faults (s : State) : (startBus s).faults = s.faults := rfl

@[simp] theorem startBus_freeDraws (s : State) : (startBus s).freeDraws = s.freeDraws := rfl

/-! ### stopBus -/

@[simp] theorem stopBus_pending (s : State) : (stopBus s).pending = s.pending := rfl

@[simp] theorem stopBus_timebase (s : State) : (stopBus s).timebase = s.timebase := rfl

@[simp] theorem stopBus_startup (s : State) : (stopBus s).startup = s.startup := rfl

@[simp] theorem stopBus_save (s : State) : (stopBus s).save = s.save := rfl

@[simp] theorem stopBus_memory (s : State) : (stopBus s).memory = s.memory := rfl

@[simp] theorem stopBus_settings (s : State) : (stopBus s).settings = s.settings := rfl

@[simp] theorem stopBus_store (s : State) : (stopBus s).store = s.store := rfl

@[simp] theorem stopBus_ports (s : State) : (stopBus s).ports = s.ports := rfl

@[simp] theorem stopBus_authority (s : State) : (stopBus s).authority = s.authority := rfl

@[simp] theorem stopBus_joysticks (s : State) : (stopBus s).joysticks = s.joysticks := rfl

@[simp] theorem stopBus_cache (s : State) : (stopBus s).cache = s.cache := rfl

@[simp] theorem stopBus_queue (s : State) : (stopBus s).queue = s.queue := rfl

@[simp] theorem stopBus_nextMoveId (s : State) : (stopBus s).nextMoveId = s.nextMoveId := rfl

@[simp] theorem stopBus_blend (s : State) : (stopBus s).blend = s.blend := rfl

@[simp] theorem stopBus_couplings (s : State) : (stopBus s).couplings = s.couplings := rfl

@[simp] theorem stopBus_demand (s : State) : (stopBus s).demand = s.demand := rfl

@[simp] theorem stopBus_clamped (s : State) : (stopBus s).clamped = s.clamped := rfl

@[simp] theorem stopBus_armed (s : State) : (stopBus s).armed = s.armed := rfl

@[simp] theorem stopBus_timecode (s : State) : (stopBus s).timecode = s.timecode := rfl

@[simp] theorem stopBus_faults (s : State) : (stopBus s).faults = s.faults := rfl

@[simp] theorem stopBus_freeDraws (s : State) : (stopBus s).freeDraws = s.freeDraws := rfl

/-! ### setBadRun -/

@[simp] theorem setBadRun_pending (s : State) (m : Master) (n : Nat) :
    (setBadRun m n s).pending = s.pending := rfl

@[simp] theorem setBadRun_timebase (s : State) (m : Master) (n : Nat) :
    (setBadRun m n s).timebase = s.timebase := rfl

@[simp] theorem setBadRun_startup (s : State) (m : Master) (n : Nat) :
    (setBadRun m n s).startup = s.startup := rfl

@[simp] theorem setBadRun_save (s : State) (m : Master) (n : Nat) :
    (setBadRun m n s).save = s.save := rfl

@[simp] theorem setBadRun_memory (s : State) (m : Master) (n : Nat) :
    (setBadRun m n s).memory = s.memory := rfl

@[simp] theorem setBadRun_settings (s : State) (m : Master) (n : Nat) :
    (setBadRun m n s).settings = s.settings := rfl

@[simp] theorem setBadRun_store (s : State) (m : Master) (n : Nat) :
    (setBadRun m n s).store = s.store := rfl

@[simp] theorem setBadRun_authority (s : State) (m : Master) (n : Nat) :
    (setBadRun m n s).authority = s.authority := rfl

@[simp] theorem setBadRun_joysticks (s : State) (m : Master) (n : Nat) :
    (setBadRun m n s).joysticks = s.joysticks := rfl

@[simp] theorem setBadRun_cache (s : State) (m : Master) (n : Nat) :
    (setBadRun m n s).cache = s.cache := rfl

@[simp] theorem setBadRun_queue (s : State) (m : Master) (n : Nat) :
    (setBadRun m n s).queue = s.queue := rfl

@[simp] theorem setBadRun_nextMoveId (s : State) (m : Master) (n : Nat) :
    (setBadRun m n s).nextMoveId = s.nextMoveId := rfl

@[simp] theorem setBadRun_blend (s : State) (m : Master) (n : Nat) :
    (setBadRun m n s).blend = s.blend := rfl

@[simp] theorem setBadRun_couplings (s : State) (m : Master) (n : Nat) :
    (setBadRun m n s).couplings = s.couplings := rfl

@[simp] theorem setBadRun_demand (s : State) (m : Master) (n : Nat) :
    (setBadRun m n s).demand = s.demand := rfl

@[simp] theorem setBadRun_clamped (s : State) (m : Master) (n : Nat) :
    (setBadRun m n s).clamped = s.clamped := rfl

@[simp] theorem setBadRun_armed (s : State) (m : Master) (n : Nat) :
    (setBadRun m n s).armed = s.armed := rfl

@[simp] theorem setBadRun_timecode (s : State) (m : Master) (n : Nat) :
    (setBadRun m n s).timecode = s.timecode := rfl

@[simp] theorem setBadRun_bus (s : State) (m : Master) (n : Nat) :
    (setBadRun m n s).bus = s.bus := rfl

@[simp] theorem setBadRun_faults (s : State) (m : Master) (n : Nat) :
    (setBadRun m n s).faults = s.faults := rfl

@[simp] theorem setBadRun_freeDraws (s : State) (m : Master) (n : Nat) :
    (setBadRun m n s).freeDraws = s.freeDraws := rfl

/-! ### frameLeaves -/

@[simp] theorem frameLeaves_pending (s : State) (m : Master) :
    (frameLeaves m s).pending = s.pending := rfl

@[simp] theorem frameLeaves_timebase (s : State) (m : Master) :
    (frameLeaves m s).timebase = s.timebase := rfl

@[simp] theorem frameLeaves_startup (s : State) (m : Master) :
    (frameLeaves m s).startup = s.startup := rfl

@[simp] theorem frameLeaves_save (s : State) (m : Master) :
    (frameLeaves m s).save = s.save := rfl

@[simp] theorem frameLeaves_memory (s : State) (m : Master) :
    (frameLeaves m s).memory = s.memory := rfl

@[simp] theorem frameLeaves_settings (s : State) (m : Master) :
    (frameLeaves m s).settings = s.settings := rfl

@[simp] theorem frameLeaves_store (s : State) (m : Master) :
    (frameLeaves m s).store = s.store := rfl

@[simp] theorem frameLeaves_authority (s : State) (m : Master) :
    (frameLeaves m s).authority = s.authority := rfl

@[simp] theorem frameLeaves_joysticks (s : State) (m : Master) :
    (frameLeaves m s).joysticks = s.joysticks := rfl

@[simp] theorem frameLeaves_cache (s : State) (m : Master) :
    (frameLeaves m s).cache = s.cache := rfl

@[simp] theorem frameLeaves_queue (s : State) (m : Master) :
    (frameLeaves m s).queue = s.queue := rfl

@[simp] theorem frameLeaves_nextMoveId (s : State) (m : Master) :
    (frameLeaves m s).nextMoveId = s.nextMoveId := rfl

@[simp] theorem frameLeaves_blend (s : State) (m : Master) :
    (frameLeaves m s).blend = s.blend := rfl

@[simp] theorem frameLeaves_couplings (s : State) (m : Master) :
    (frameLeaves m s).couplings = s.couplings := rfl

@[simp] theorem frameLeaves_demand (s : State) (m : Master) :
    (frameLeaves m s).demand = s.demand := rfl

@[simp] theorem frameLeaves_clamped (s : State) (m : Master) :
    (frameLeaves m s).clamped = s.clamped := rfl

@[simp] theorem frameLeaves_armed (s : State) (m : Master) :
    (frameLeaves m s).armed = s.armed := rfl

@[simp] theorem frameLeaves_timecode (s : State) (m : Master) :
    (frameLeaves m s).timecode = s.timecode := rfl

@[simp] theorem frameLeaves_bus (s : State) (m : Master) : (frameLeaves m s).bus = s.bus := rfl

@[simp] theorem frameLeaves_faults (s : State) (m : Master) :
    (frameLeaves m s).faults = s.faults := rfl

@[simp] theorem frameLeaves_freeDraws (s : State) (m : Master) :
    (frameLeaves m s).freeDraws = s.freeDraws + 1 := rfl

/-! ### queueReply -/

@[simp] theorem queueReply_pending (s : State) (h : Header) (r : Reply) :
    (queueReply h r s).pending = s.pending := rfl

@[simp] theorem queueReply_timebase (s : State) (h : Header) (r : Reply) :
    (queueReply h r s).timebase = s.timebase := rfl

@[simp] theorem queueReply_startup (s : State) (h : Header) (r : Reply) :
    (queueReply h r s).startup = s.startup := rfl

@[simp] theorem queueReply_save (s : State) (h : Header) (r : Reply) :
    (queueReply h r s).save = s.save := rfl

@[simp] theorem queueReply_memory (s : State) (h : Header) (r : Reply) :
    (queueReply h r s).memory = s.memory := rfl

@[simp] theorem queueReply_settings (s : State) (h : Header) (r : Reply) :
    (queueReply h r s).settings = s.settings := rfl

@[simp] theorem queueReply_store (s : State) (h : Header) (r : Reply) :
    (queueReply h r s).store = s.store := rfl

@[simp] theorem queueReply_authority (s : State) (h : Header) (r : Reply) :
    (queueReply h r s).authority = s.authority := rfl

@[simp] theorem queueReply_joysticks (s : State) (h : Header) (r : Reply) :
    (queueReply h r s).joysticks = s.joysticks := rfl

@[simp] theorem queueReply_cache (s : State) (h : Header) (r : Reply) :
    (queueReply h r s).cache = s.cache := rfl

@[simp] theorem queueReply_queue (s : State) (h : Header) (r : Reply) :
    (queueReply h r s).queue = s.queue := rfl

@[simp] theorem queueReply_nextMoveId (s : State) (h : Header) (r : Reply) :
    (queueReply h r s).nextMoveId = s.nextMoveId := rfl

@[simp] theorem queueReply_blend (s : State) (h : Header) (r : Reply) :
    (queueReply h r s).blend = s.blend := rfl

@[simp] theorem queueReply_couplings (s : State) (h : Header) (r : Reply) :
    (queueReply h r s).couplings = s.couplings := rfl

@[simp] theorem queueReply_demand (s : State) (h : Header) (r : Reply) :
    (queueReply h r s).demand = s.demand := rfl

@[simp] theorem queueReply_clamped (s : State) (h : Header) (r : Reply) :
    (queueReply h r s).clamped = s.clamped := rfl

@[simp] theorem queueReply_armed (s : State) (h : Header) (r : Reply) :
    (queueReply h r s).armed = s.armed := rfl

@[simp] theorem queueReply_timecode (s : State) (h : Header) (r : Reply) :
    (queueReply h r s).timecode = s.timecode := rfl

@[simp] theorem queueReply_bus (s : State) (h : Header) (r : Reply) :
    (queueReply h r s).bus = s.bus := rfl

@[simp] theorem queueReply_faults (s : State) (h : Header) (r : Reply) :
    (queueReply h r s).faults = s.faults := rfl

@[simp] theorem queueReply_freeDraws (s : State) (h : Header) (r : Reply) :
    (queueReply h r s).freeDraws = s.freeDraws := rfl

/-! ### placeNotice -/

@[simp] theorem placeNotice_pending (s : State) (p : Post) :
    (placeNotice s p).pending = s.pending := rfl

@[simp] theorem placeNotice_timebase (s : State) (p : Post) :
    (placeNotice s p).timebase = s.timebase := rfl

@[simp] theorem placeNotice_startup (s : State) (p : Post) :
    (placeNotice s p).startup = s.startup := rfl

@[simp] theorem placeNotice_save (s : State) (p : Post) : (placeNotice s p).save = s.save := rfl

@[simp] theorem placeNotice_memory (s : State) (p : Post) :
    (placeNotice s p).memory = s.memory := rfl

@[simp] theorem placeNotice_settings (s : State) (p : Post) :
    (placeNotice s p).settings = s.settings := rfl

@[simp] theorem placeNotice_store (s : State) (p : Post) :
    (placeNotice s p).store = s.store := rfl

@[simp] theorem placeNotice_authority (s : State) (p : Post) :
    (placeNotice s p).authority = s.authority := rfl

@[simp] theorem placeNotice_joysticks (s : State) (p : Post) :
    (placeNotice s p).joysticks = s.joysticks := rfl

@[simp] theorem placeNotice_cache (s : State) (p : Post) :
    (placeNotice s p).cache = s.cache := rfl

@[simp] theorem placeNotice_queue (s : State) (p : Post) :
    (placeNotice s p).queue = s.queue := rfl

@[simp] theorem placeNotice_nextMoveId (s : State) (p : Post) :
    (placeNotice s p).nextMoveId = s.nextMoveId := rfl

@[simp] theorem placeNotice_blend (s : State) (p : Post) :
    (placeNotice s p).blend = s.blend := rfl

@[simp] theorem placeNotice_couplings (s : State) (p : Post) :
    (placeNotice s p).couplings = s.couplings := rfl

@[simp] theorem placeNotice_demand (s : State) (p : Post) :
    (placeNotice s p).demand = s.demand := rfl

@[simp] theorem placeNotice_clamped (s : State) (p : Post) :
    (placeNotice s p).clamped = s.clamped := rfl

@[simp] theorem placeNotice_armed (s : State) (p : Post) :
    (placeNotice s p).armed = s.armed := rfl

@[simp] theorem placeNotice_timecode (s : State) (p : Post) :
    (placeNotice s p).timecode = s.timecode := rfl

@[simp] theorem placeNotice_bus (s : State) (p : Post) : (placeNotice s p).bus = s.bus := rfl

@[simp] theorem placeNotice_faults (s : State) (p : Post) :
    (placeNotice s p).faults = s.faults := rfl

@[simp] theorem placeNotice_freeDraws (s : State) (p : Post) :
    (placeNotice s p).freeDraws = s.freeDraws := rfl

/-! ### appendMove -/

@[simp] theorem appendMove_pending (s : State) (m : Master) (n : Nat) (x : AxisSet) (c : Cue) (v : Nat) :
    (appendMove m n x c v s).pending = s.pending := rfl

@[simp] theorem appendMove_timebase (s : State) (m : Master) (n : Nat) (x : AxisSet) (c : Cue) (v : Nat) :
    (appendMove m n x c v s).timebase = s.timebase := rfl

@[simp] theorem appendMove_startup (s : State) (m : Master) (n : Nat) (x : AxisSet) (c : Cue) (v : Nat) :
    (appendMove m n x c v s).startup = s.startup := rfl

@[simp] theorem appendMove_save (s : State) (m : Master) (n : Nat) (x : AxisSet) (c : Cue) (v : Nat) :
    (appendMove m n x c v s).save = s.save := rfl

@[simp] theorem appendMove_memory (s : State) (m : Master) (n : Nat) (x : AxisSet) (c : Cue) (v : Nat) :
    (appendMove m n x c v s).memory = s.memory := rfl

@[simp] theorem appendMove_settings (s : State) (m : Master) (n : Nat) (x : AxisSet) (c : Cue) (v : Nat) :
    (appendMove m n x c v s).settings = s.settings := rfl

@[simp] theorem appendMove_store (s : State) (m : Master) (n : Nat) (x : AxisSet) (c : Cue) (v : Nat) :
    (appendMove m n x c v s).store = s.store := rfl

@[simp] theorem appendMove_ports (s : State) (m : Master) (n : Nat) (x : AxisSet) (c : Cue) (v : Nat) :
    (appendMove m n x c v s).ports = s.ports := rfl

@[simp] theorem appendMove_authority (s : State) (m : Master) (n : Nat) (x : AxisSet) (c : Cue) (v : Nat) :
    (appendMove m n x c v s).authority = s.authority := rfl

@[simp] theorem appendMove_joysticks (s : State) (m : Master) (n : Nat) (x : AxisSet) (c : Cue) (v : Nat) :
    (appendMove m n x c v s).joysticks = s.joysticks := rfl

@[simp] theorem appendMove_cache (s : State) (m : Master) (n : Nat) (x : AxisSet) (c : Cue) (v : Nat) :
    (appendMove m n x c v s).cache = s.cache := rfl

@[simp] theorem appendMove_queue (s : State) (m : Master) (n : Nat) (x : AxisSet) (c : Cue) (v : Nat) :
    (appendMove m n x c v s).queue = s.queue ++ [newMove (newId s) m n x c v] := rfl

@[simp] theorem appendMove_nextMoveId (s : State) (m : Master) (n : Nat) (x : AxisSet) (c : Cue) (v : Nat) :
    (appendMove m n x c v s).nextMoveId = idAfter (newId s) := rfl

@[simp] theorem appendMove_blend (s : State) (m : Master) (n : Nat) (x : AxisSet) (c : Cue) (v : Nat) :
    (appendMove m n x c v s).blend = s.blend := rfl

@[simp] theorem appendMove_couplings (s : State) (m : Master) (n : Nat) (x : AxisSet) (c : Cue) (v : Nat) :
    (appendMove m n x c v s).couplings = s.couplings := rfl

@[simp] theorem appendMove_demand (s : State) (m : Master) (n : Nat) (x : AxisSet) (c : Cue) (v : Nat) :
    (appendMove m n x c v s).demand = s.demand := rfl

@[simp] theorem appendMove_clamped (s : State) (m : Master) (n : Nat) (x : AxisSet) (c : Cue) (v : Nat) :
    (appendMove m n x c v s).clamped = s.clamped := rfl

@[simp] theorem appendMove_armed (s : State) (m : Master) (n : Nat) (x : AxisSet) (c : Cue) (v : Nat) :
    (appendMove m n x c v s).armed = s.armed := rfl

@[simp] theorem appendMove_timecode (s : State) (m : Master) (n : Nat) (x : AxisSet) (c : Cue) (v : Nat) :
    (appendMove m n x c v s).timecode = s.timecode := rfl

@[simp] theorem appendMove_bus (s : State) (m : Master) (n : Nat) (x : AxisSet) (c : Cue) (v : Nat) :
    (appendMove m n x c v s).bus = s.bus := rfl

@[simp] theorem appendMove_faults (s : State) (m : Master) (n : Nat) (x : AxisSet) (c : Cue) (v : Nat) :
    (appendMove m n x c v s).faults = s.faults := rfl

@[simp] theorem appendMove_freeDraws (s : State) (m : Master) (n : Nat) (x : AxisSet) (c : Cue) (v : Nat) :
    (appendMove m n x c v s).freeDraws = s.freeDraws := rfl

/-! ### drawn -/

@[simp] theorem drawn_pending (s : State) : (drawn s).pending = s.pending := rfl

@[simp] theorem drawn_timebase (s : State) : (drawn s).timebase = s.timebase := rfl

@[simp] theorem drawn_startup (s : State) : (drawn s).startup = s.startup := rfl

@[simp] theorem drawn_save (s : State) : (drawn s).save = s.save := rfl

@[simp] theorem drawn_memory (s : State) : (drawn s).memory = s.memory := rfl

@[simp] theorem drawn_settings (s : State) : (drawn s).settings = s.settings := rfl

@[simp] theorem drawn_store (s : State) : (drawn s).store = s.store := rfl

@[simp] theorem drawn_ports (s : State) : (drawn s).ports = s.ports := rfl

@[simp] theorem drawn_authority (s : State) : (drawn s).authority = s.authority := rfl

@[simp] theorem drawn_joysticks (s : State) : (drawn s).joysticks = s.joysticks := rfl

@[simp] theorem drawn_cache (s : State) : (drawn s).cache = s.cache := rfl

@[simp] theorem drawn_queue (s : State) : (drawn s).queue = s.queue := rfl

@[simp] theorem drawn_nextMoveId (s : State) : (drawn s).nextMoveId = s.nextMoveId := rfl

@[simp] theorem drawn_blend (s : State) : (drawn s).blend = s.blend := rfl

@[simp] theorem drawn_couplings (s : State) : (drawn s).couplings = s.couplings := rfl

@[simp] theorem drawn_demand (s : State) : (drawn s).demand = s.demand := rfl

@[simp] theorem drawn_clamped (s : State) : (drawn s).clamped = s.clamped := rfl

@[simp] theorem drawn_armed (s : State) : (drawn s).armed = s.armed := rfl

@[simp] theorem drawn_timecode (s : State) : (drawn s).timecode = s.timecode := rfl

@[simp] theorem drawn_bus (s : State) : (drawn s).bus = s.bus := rfl

@[simp] theorem drawn_faults (s : State) : (drawn s).faults = s.faults := rfl

@[simp] theorem drawn_freeDraws (s : State) : (drawn s).freeDraws = s.freeDraws + 1 := rfl

/-! ### setLevels -/

@[simp] theorem setLevels_pending (s : State) (b c : Bool) :
    (setLevels b c s).pending = s.pending := rfl

@[simp] theorem setLevels_timebase (s : State) (b c : Bool) :
    (setLevels b c s).timebase = s.timebase := rfl

@[simp] theorem setLevels_save (s : State) (b c : Bool) : (setLevels b c s).save = s.save := rfl

@[simp] theorem setLevels_memory (s : State) (b c : Bool) :
    (setLevels b c s).memory = s.memory := rfl

@[simp] theorem setLevels_settings (s : State) (b c : Bool) :
    (setLevels b c s).settings = s.settings := rfl

@[simp] theorem setLevels_store (s : State) (b c : Bool) :
    (setLevels b c s).store = s.store := rfl

@[simp] theorem setLevels_ports (s : State) (b c : Bool) :
    (setLevels b c s).ports = s.ports := rfl

@[simp] theorem setLevels_authority (s : State) (b c : Bool) :
    (setLevels b c s).authority = s.authority := rfl

@[simp] theorem setLevels_joysticks (s : State) (b c : Bool) :
    (setLevels b c s).joysticks = s.joysticks := rfl

@[simp] theorem setLevels_cache (s : State) (b c : Bool) :
    (setLevels b c s).cache = s.cache := rfl

@[simp] theorem setLevels_queue (s : State) (b c : Bool) :
    (setLevels b c s).queue = s.queue := rfl

@[simp] theorem setLevels_nextMoveId (s : State) (b c : Bool) :
    (setLevels b c s).nextMoveId = s.nextMoveId := rfl

@[simp] theorem setLevels_blend (s : State) (b c : Bool) :
    (setLevels b c s).blend = s.blend := rfl

@[simp] theorem setLevels_couplings (s : State) (b c : Bool) :
    (setLevels b c s).couplings = s.couplings := rfl

@[simp] theorem setLevels_demand (s : State) (b c : Bool) :
    (setLevels b c s).demand = s.demand := rfl

@[simp] theorem setLevels_clamped (s : State) (b c : Bool) :
    (setLevels b c s).clamped = s.clamped := rfl

@[simp] theorem setLevels_armed (s : State) (b c : Bool) :
    (setLevels b c s).armed = s.armed := rfl

@[simp] theorem setLevels_timecode (s : State) (b c : Bool) :
    (setLevels b c s).timecode = s.timecode := rfl

@[simp] theorem setLevels_bus (s : State) (b c : Bool) : (setLevels b c s).bus = s.bus := rfl

@[simp] theorem setLevels_faults (s : State) (b c : Bool) :
    (setLevels b c s).faults = s.faults := rfl

@[simp] theorem setLevels_freeDraws (s : State) (b c : Bool) :
    (setLevels b c s).freeDraws = s.freeDraws := rfl

/-! ### setPhase -/

@[simp] theorem setPhase_pending (s : State) (p : Phase) :
    (setPhase p s).pending = s.pending := rfl

@[simp] theorem setPhase_timebase (s : State) (p : Phase) :
    (setPhase p s).timebase = s.timebase := rfl

@[simp] theorem setPhase_save (s : State) (p : Phase) : (setPhase p s).save = s.save := rfl

@[simp] theorem setPhase_memory (s : State) (p : Phase) : (setPhase p s).memory = s.memory := rfl

@[simp] theorem setPhase_settings (s : State) (p : Phase) :
    (setPhase p s).settings = s.settings := rfl

@[simp] theorem setPhase_store (s : State) (p : Phase) : (setPhase p s).store = s.store := rfl

@[simp] theorem setPhase_ports (s : State) (p : Phase) : (setPhase p s).ports = s.ports := rfl

@[simp] theorem setPhase_authority (s : State) (p : Phase) :
    (setPhase p s).authority = s.authority := rfl

@[simp] theorem setPhase_joysticks (s : State) (p : Phase) :
    (setPhase p s).joysticks = s.joysticks := rfl

@[simp] theorem setPhase_cache (s : State) (p : Phase) : (setPhase p s).cache = s.cache := rfl

@[simp] theorem setPhase_queue (s : State) (p : Phase) : (setPhase p s).queue = s.queue := rfl

@[simp] theorem setPhase_nextMoveId (s : State) (p : Phase) :
    (setPhase p s).nextMoveId = s.nextMoveId := rfl

@[simp] theorem setPhase_blend (s : State) (p : Phase) : (setPhase p s).blend = s.blend := rfl

@[simp] theorem setPhase_couplings (s : State) (p : Phase) :
    (setPhase p s).couplings = s.couplings := rfl

@[simp] theorem setPhase_demand (s : State) (p : Phase) : (setPhase p s).demand = s.demand := rfl

@[simp] theorem setPhase_clamped (s : State) (p : Phase) :
    (setPhase p s).clamped = s.clamped := rfl

@[simp] theorem setPhase_armed (s : State) (p : Phase) : (setPhase p s).armed = s.armed := rfl

@[simp] theorem setPhase_timecode (s : State) (p : Phase) :
    (setPhase p s).timecode = s.timecode := rfl

@[simp] theorem setPhase_bus (s : State) (p : Phase) : (setPhase p s).bus = s.bus := rfl

@[simp] theorem setPhase_faults (s : State) (p : Phase) : (setPhase p s).faults = s.faults := rfl

@[simp] theorem setPhase_freeDraws (s : State) (p : Phase) :
    (setPhase p s).freeDraws = s.freeDraws := rfl

/-! ### recordLoad -/

@[simp] theorem recordLoad_pending (s : State) (c : ConfigSource) (b : Bool) :
    (recordLoad c b s).pending = s.pending := rfl

@[simp] theorem recordLoad_timebase (s : State) (c : ConfigSource) (b : Bool) :
    (recordLoad c b s).timebase = s.timebase := rfl

@[simp] theorem recordLoad_save (s : State) (c : ConfigSource) (b : Bool) :
    (recordLoad c b s).save = s.save := rfl

@[simp] theorem recordLoad_memory (s : State) (c : ConfigSource) (b : Bool) :
    (recordLoad c b s).memory = s.memory := rfl

@[simp] theorem recordLoad_settings (s : State) (c : ConfigSource) (b : Bool) :
    (recordLoad c b s).settings = s.settings := rfl

@[simp] theorem recordLoad_store (s : State) (c : ConfigSource) (b : Bool) :
    (recordLoad c b s).store = s.store := rfl

@[simp] theorem recordLoad_ports (s : State) (c : ConfigSource) (b : Bool) :
    (recordLoad c b s).ports = s.ports := rfl

@[simp] theorem recordLoad_authority (s : State) (c : ConfigSource) (b : Bool) :
    (recordLoad c b s).authority = s.authority := rfl

@[simp] theorem recordLoad_joysticks (s : State) (c : ConfigSource) (b : Bool) :
    (recordLoad c b s).joysticks = s.joysticks := rfl

@[simp] theorem recordLoad_cache (s : State) (c : ConfigSource) (b : Bool) :
    (recordLoad c b s).cache = s.cache := rfl

@[simp] theorem recordLoad_queue (s : State) (c : ConfigSource) (b : Bool) :
    (recordLoad c b s).queue = s.queue := rfl

@[simp] theorem recordLoad_nextMoveId (s : State) (c : ConfigSource) (b : Bool) :
    (recordLoad c b s).nextMoveId = s.nextMoveId := rfl

@[simp] theorem recordLoad_blend (s : State) (c : ConfigSource) (b : Bool) :
    (recordLoad c b s).blend = s.blend := rfl

@[simp] theorem recordLoad_couplings (s : State) (c : ConfigSource) (b : Bool) :
    (recordLoad c b s).couplings = s.couplings := rfl

@[simp] theorem recordLoad_demand (s : State) (c : ConfigSource) (b : Bool) :
    (recordLoad c b s).demand = s.demand := rfl

@[simp] theorem recordLoad_clamped (s : State) (c : ConfigSource) (b : Bool) :
    (recordLoad c b s).clamped = s.clamped := rfl

@[simp] theorem recordLoad_armed (s : State) (c : ConfigSource) (b : Bool) :
    (recordLoad c b s).armed = s.armed := rfl

@[simp] theorem recordLoad_timecode (s : State) (c : ConfigSource) (b : Bool) :
    (recordLoad c b s).timecode = s.timecode := rfl

@[simp] theorem recordLoad_bus (s : State) (c : ConfigSource) (b : Bool) :
    (recordLoad c b s).bus = s.bus := rfl

@[simp] theorem recordLoad_faults (s : State) (c : ConfigSource) (b : Bool) :
    (recordLoad c b s).faults = s.faults := rfl

@[simp] theorem recordLoad_freeDraws (s : State) (c : ConfigSource) (b : Bool) :
    (recordLoad c b s).freeDraws = s.freeDraws := rfl

/-! ### takeImage -/

@[simp] theorem takeImage_pending (s : State) (i : ConfigImage) :
    (takeImage i s).pending = s.pending := rfl

@[simp] theorem takeImage_timebase (s : State) (i : ConfigImage) :
    (takeImage i s).timebase = s.timebase := rfl

@[simp] theorem takeImage_startup (s : State) (i : ConfigImage) :
    (takeImage i s).startup = s.startup := rfl

@[simp] theorem takeImage_save (s : State) (i : ConfigImage) :
    (takeImage i s).save = s.save := rfl

@[simp] theorem takeImage_memory (s : State) (i : ConfigImage) :
    (takeImage i s).memory = s.memory := rfl

@[simp] theorem takeImage_settings (s : State) (i : ConfigImage) :
    (takeImage i s).settings = i.settings := rfl

@[simp] theorem takeImage_ports (s : State) (i : ConfigImage) :
    (takeImage i s).ports = s.ports := rfl

@[simp] theorem takeImage_authority (s : State) (i : ConfigImage) :
    (takeImage i s).authority = s.authority := rfl

@[simp] theorem takeImage_joysticks (s : State) (i : ConfigImage) :
    (takeImage i s).joysticks = freshWhereOff i.settings.staleLimits s.joysticks := rfl

@[simp] theorem takeImage_cache (s : State) (i : ConfigImage) :
    (takeImage i s).cache = s.cache := rfl

@[simp] theorem takeImage_queue (s : State) (i : ConfigImage) :
    (takeImage i s).queue = s.queue := rfl

@[simp] theorem takeImage_nextMoveId (s : State) (i : ConfigImage) :
    (takeImage i s).nextMoveId = s.nextMoveId := rfl

@[simp] theorem takeImage_blend (s : State) (i : ConfigImage) :
    (takeImage i s).blend = s.blend := rfl

@[simp] theorem takeImage_couplings (s : State) (i : ConfigImage) :
    (takeImage i s).couplings = s.couplings := rfl

@[simp] theorem takeImage_demand (s : State) (i : ConfigImage) :
    (takeImage i s).demand = s.demand := rfl

@[simp] theorem takeImage_clamped (s : State) (i : ConfigImage) :
    (takeImage i s).clamped = s.clamped := rfl

@[simp] theorem takeImage_armed (s : State) (i : ConfigImage) :
    (takeImage i s).armed = s.armed := rfl

@[simp] theorem takeImage_timecode (s : State) (i : ConfigImage) :
    (takeImage i s).timecode = s.timecode := rfl

@[simp] theorem takeImage_bus (s : State) (i : ConfigImage) :
    (takeImage i s).bus = s.bus := rfl

@[simp] theorem takeImage_faults (s : State) (i : ConfigImage) :
    (takeImage i s).faults = s.faults := rfl

@[simp] theorem takeImage_freeDraws (s : State) (i : ConfigImage) :
    (takeImage i s).freeDraws = s.freeDraws := rfl

/-! ### takeDefaults -/

@[simp] theorem takeDefaults_pending (s : State) : (takeDefaults s).pending = s.pending := rfl

@[simp] theorem takeDefaults_timebase (s : State) : (takeDefaults s).timebase = s.timebase := rfl

@[simp] theorem takeDefaults_startup (s : State) : (takeDefaults s).startup = s.startup := rfl

@[simp] theorem takeDefaults_save (s : State) : (takeDefaults s).save = s.save := rfl

@[simp] theorem takeDefaults_memory (s : State) : (takeDefaults s).memory = s.memory := rfl

@[simp] theorem takeDefaults_settings (s : State) :
    (takeDefaults s).settings = Settings.builtIn := rfl

@[simp] theorem takeDefaults_store (s : State) : (takeDefaults s).store = s.store := rfl

@[simp] theorem takeDefaults_ports (s : State) : (takeDefaults s).ports = s.ports := rfl

@[simp] theorem takeDefaults_authority (s : State) : (takeDefaults s).authority = s.authority := rfl

@[simp] theorem takeDefaults_joysticks (s : State) : (takeDefaults s).joysticks = s.joysticks := rfl

@[simp] theorem takeDefaults_cache (s : State) : (takeDefaults s).cache = s.cache := rfl

@[simp] theorem takeDefaults_queue (s : State) : (takeDefaults s).queue = s.queue := rfl

@[simp] theorem takeDefaults_nextMoveId (s : State) :
    (takeDefaults s).nextMoveId = s.nextMoveId := rfl

@[simp] theorem takeDefaults_blend (s : State) : (takeDefaults s).blend = s.blend := rfl

@[simp] theorem takeDefaults_couplings (s : State) : (takeDefaults s).couplings = s.couplings := rfl

@[simp] theorem takeDefaults_demand (s : State) : (takeDefaults s).demand = s.demand := rfl

@[simp] theorem takeDefaults_clamped (s : State) : (takeDefaults s).clamped = s.clamped := rfl

@[simp] theorem takeDefaults_armed (s : State) : (takeDefaults s).armed = s.armed := rfl

@[simp] theorem takeDefaults_timecode (s : State) : (takeDefaults s).timecode = s.timecode := rfl

@[simp] theorem takeDefaults_bus (s : State) : (takeDefaults s).bus = s.bus := rfl

@[simp] theorem takeDefaults_faults (s : State) : (takeDefaults s).faults = s.faults := rfl

@[simp] theorem takeDefaults_freeDraws (s : State) : (takeDefaults s).freeDraws = s.freeDraws := rfl

/-! ### openPorts -/

@[simp] theorem openPorts_pending (s : State) : (openPorts s).pending = s.pending := rfl

@[simp] theorem openPorts_timebase (s : State) : (openPorts s).timebase = s.timebase := rfl

@[simp] theorem openPorts_startup (s : State) : (openPorts s).startup = s.startup := rfl

@[simp] theorem openPorts_save (s : State) : (openPorts s).save = s.save := rfl

@[simp] theorem openPorts_memory (s : State) : (openPorts s).memory = s.memory := rfl

@[simp] theorem openPorts_settings (s : State) : (openPorts s).settings = s.settings := rfl

@[simp] theorem openPorts_store (s : State) : (openPorts s).store = s.store := rfl

@[simp] theorem openPorts_authority (s : State) : (openPorts s).authority = s.authority := rfl

@[simp] theorem openPorts_joysticks (s : State) : (openPorts s).joysticks = s.joysticks := rfl

@[simp] theorem openPorts_cache (s : State) : (openPorts s).cache = s.cache := rfl

@[simp] theorem openPorts_queue (s : State) : (openPorts s).queue = s.queue := rfl

@[simp] theorem openPorts_nextMoveId (s : State) : (openPorts s).nextMoveId = s.nextMoveId := rfl

@[simp] theorem openPorts_blend (s : State) : (openPorts s).blend = s.blend := rfl

@[simp] theorem openPorts_couplings (s : State) : (openPorts s).couplings = s.couplings := rfl

@[simp] theorem openPorts_demand (s : State) : (openPorts s).demand = s.demand := rfl

@[simp] theorem openPorts_clamped (s : State) : (openPorts s).clamped = s.clamped := rfl

@[simp] theorem openPorts_armed (s : State) : (openPorts s).armed = s.armed := rfl

@[simp] theorem openPorts_timecode (s : State) : (openPorts s).timecode = s.timecode := rfl

@[simp] theorem openPorts_bus (s : State) : (openPorts s).bus = s.bus := rfl

@[simp] theorem openPorts_faults (s : State) : (openPorts s).faults = s.faults := rfl

@[simp] theorem openPorts_freeDraws (s : State) : (openPorts s).freeDraws = s.freeDraws := rfl

/-! ### setMemory -/

@[simp] theorem setMemory_pending (s : State) (i : ConfigImage) :
    (setMemory i s).pending = s.pending := rfl

@[simp] theorem setMemory_timebase (s : State) (i : ConfigImage) :
    (setMemory i s).timebase = s.timebase := rfl

@[simp] theorem setMemory_startup (s : State) (i : ConfigImage) :
    (setMemory i s).startup = s.startup := rfl

@[simp] theorem setMemory_save (s : State) (i : ConfigImage) :
    (setMemory i s).save = s.save := rfl

@[simp] theorem setMemory_memory (s : State) (i : ConfigImage) : (setMemory i s).memory = i := rfl

@[simp] theorem setMemory_settings (s : State) (i : ConfigImage) :
    (setMemory i s).settings = s.settings := rfl

@[simp] theorem setMemory_store (s : State) (i : ConfigImage) :
    (setMemory i s).store = s.store := rfl

@[simp] theorem setMemory_ports (s : State) (i : ConfigImage) :
    (setMemory i s).ports = s.ports := rfl

@[simp] theorem setMemory_authority (s : State) (i : ConfigImage) :
    (setMemory i s).authority = s.authority := rfl

@[simp] theorem setMemory_joysticks (s : State) (i : ConfigImage) :
    (setMemory i s).joysticks = s.joysticks := rfl

@[simp] theorem setMemory_cache (s : State) (i : ConfigImage) :
    (setMemory i s).cache = s.cache := rfl

@[simp] theorem setMemory_queue (s : State) (i : ConfigImage) :
    (setMemory i s).queue = s.queue := rfl

@[simp] theorem setMemory_nextMoveId (s : State) (i : ConfigImage) :
    (setMemory i s).nextMoveId = s.nextMoveId := rfl

@[simp] theorem setMemory_blend (s : State) (i : ConfigImage) :
    (setMemory i s).blend = s.blend := rfl

@[simp] theorem setMemory_couplings (s : State) (i : ConfigImage) :
    (setMemory i s).couplings = s.couplings := rfl

@[simp] theorem setMemory_demand (s : State) (i : ConfigImage) :
    (setMemory i s).demand = s.demand := rfl

@[simp] theorem setMemory_clamped (s : State) (i : ConfigImage) :
    (setMemory i s).clamped = s.clamped := rfl

@[simp] theorem setMemory_armed (s : State) (i : ConfigImage) :
    (setMemory i s).armed = s.armed := rfl

@[simp] theorem setMemory_timecode (s : State) (i : ConfigImage) :
    (setMemory i s).timecode = s.timecode := rfl

@[simp] theorem setMemory_bus (s : State) (i : ConfigImage) :
    (setMemory i s).bus = s.bus := rfl

@[simp] theorem setMemory_faults (s : State) (i : ConfigImage) :
    (setMemory i s).faults = s.faults := rfl

@[simp] theorem setMemory_freeDraws (s : State) (i : ConfigImage) :
    (setMemory i s).freeDraws = s.freeDraws := rfl

/-! ### endSave -/

@[simp] theorem endSave_pending (s : State) : (endSave s).pending = s.pending := rfl

@[simp] theorem endSave_timebase (s : State) : (endSave s).timebase = s.timebase := rfl

@[simp] theorem endSave_startup (s : State) : (endSave s).startup = s.startup := rfl

@[simp] theorem endSave_save (s : State) : (endSave s).save = none := rfl

@[simp] theorem endSave_memory (s : State) : (endSave s).memory = s.memory := rfl

@[simp] theorem endSave_settings (s : State) : (endSave s).settings = s.settings := rfl

@[simp] theorem endSave_store (s : State) : (endSave s).store = s.store := rfl

@[simp] theorem endSave_ports (s : State) : (endSave s).ports = s.ports := rfl

@[simp] theorem endSave_authority (s : State) : (endSave s).authority = s.authority := rfl

@[simp] theorem endSave_joysticks (s : State) : (endSave s).joysticks = s.joysticks := rfl

@[simp] theorem endSave_cache (s : State) : (endSave s).cache = s.cache := rfl

@[simp] theorem endSave_queue (s : State) : (endSave s).queue = s.queue := rfl

@[simp] theorem endSave_nextMoveId (s : State) : (endSave s).nextMoveId = s.nextMoveId := rfl

@[simp] theorem endSave_blend (s : State) : (endSave s).blend = s.blend := rfl

@[simp] theorem endSave_couplings (s : State) : (endSave s).couplings = s.couplings := rfl

@[simp] theorem endSave_demand (s : State) : (endSave s).demand = s.demand := rfl

@[simp] theorem endSave_clamped (s : State) : (endSave s).clamped = s.clamped := rfl

@[simp] theorem endSave_armed (s : State) : (endSave s).armed = s.armed := rfl

@[simp] theorem endSave_timecode (s : State) : (endSave s).timecode = s.timecode := rfl

@[simp] theorem endSave_bus (s : State) : (endSave s).bus = s.bus := rfl

@[simp] theorem endSave_faults (s : State) : (endSave s).faults = s.faults := rfl

@[simp] theorem endSave_freeDraws (s : State) : (endSave s).freeDraws = s.freeDraws := rfl

end Sys2Proof.Machine
end

