-- ==== Sys2Proof/Laws/Tables.lean ====
section
/-! SUPPORT. What the fixed tables, axis sets and numbered tables read after each of their operations. -/

namespace Sys2Proof

/-! ## Axes and axis sets -/

theorem Axis.mem_all (a : Axis) : a ∈ Axis.all := by cases a <;> decide

theorem Master.mem_all (m : Master) : m ∈ Master.all := by cases m <;> decide

/-- A test of every axis in channel order is a test of each. -/
theorem Axis.all_eq_true {p : Axis → Bool} : Axis.all.all p = true ↔ ∀ a, p a = true := by
  simp only [List.all_eq_true]
  exact ⟨fun h a => h a a.mem_all, fun h a _ => h a⟩

theorem Axis.any_eq_true {p : Axis → Bool} : Axis.all.any p = true ↔ ∃ a, p a = true := by
  simp only [List.any_eq_true]
  exact ⟨fun ⟨a, _, h⟩ => ⟨a, h⟩, fun ⟨a, h⟩ => ⟨a, a.mem_all, h⟩⟩

theorem Axis.number_inj {a b : Axis} (h : a.number = b.number) : a = b := by
  cases a <;> cases b <;> first | rfl | cases h

theorem Axis.ofNumber_number (a : Axis) : Axis.ofNumber? a.number = some a := by cases a <;> rfl

@[simp] theorem AxisSet.has_and (x y : AxisSet) (a : Axis) :
    AxisSet.has (x &&& y) a = (AxisSet.has x a && AxisSet.has y a) := by simp [AxisSet.has]

@[simp] theorem AxisSet.has_or (x y : AxisSet) (a : Axis) :
    AxisSet.has (x ||| y) a = (AxisSet.has x a || AxisSet.has y a) := by simp [AxisSet.has]

@[simp] theorem AxisSet.has_not (x : AxisSet) (a : Axis) :
    AxisSet.has (~~~x) a = !(AxisSet.has x a) := by
  cases a <;> simp [AxisSet.has, Axis.number]

@[simp] theorem AxisSet.has_zero (a : Axis) : AxisSet.has 0#8 a = false := by simp [AxisSet.has]

@[simp] theorem AxisSet.has_full (a : Axis) : AxisSet.has AxisSet.full a = true := by
  cases a <;> decide

theorem AxisSet.has_aloneIf (a b : Axis) (p : Bool) :
    AxisSet.has (a.aloneIf p) b = (decide (a = b) && p) := by
  cases a <;> cases b <;> cases p <;> decide

/-- Membership of the set a test gives. -/
@[simp] theorem AxisSet.has_ofTest (p : Axis → Bool) (a : Axis) :
    AxisSet.has (AxisSet.ofTest p) a = p a := by
  cases a <;> simp [AxisSet.ofTest, AxisSet.has_aloneIf]

/-- Two axis sets with the same members are equal. -/
theorem AxisSet.eq_of_has {x y : AxisSet} (h : ∀ a, AxisSet.has x a = AxisSet.has y a) : x = y := by
  apply BitVec.eq_of_getLsbD_eq
  intro i hi
  have hall : i = 0 ∨ i = 1 ∨ i = 2 ∨ i = 3 ∨ i = 4 ∨ i = 5 ∨ i = 6 ∨ i = 7 := by omega
  rcases hall with h' | h' | h' | h' | h' | h' | h' | h' <;> subst h'
  · exact h .track
  · exact h .swing
  · exact h .lift
  · exact h .tele
  · exact h .pan
  · exact h .tilt
  · exact h .roll
  · exact h .zoom

/-- An axis set is empty exactly when it has no member. -/
theorem AxisSet.eq_zero_iff {x : AxisSet} : x = 0#8 ↔ ∀ a, AxisSet.has x a = false :=
  ⟨fun h a => by simp [h], fun h => AxisSet.eq_of_has fun a => by simp [h a]⟩

@[simp] theorem AxisSet.mem_members (x : AxisSet) (a : Axis) :
    a ∈ AxisSet.members x ↔ AxisSet.has x a = true := by
  simp [AxisSet.members, Axis.mem_all]

/-! ## Tables with one entry per axis or per master -/

@[simp] theorem PerAxis.get_set_same {α : Type} (t : PerAxis α) (a : Axis) (v : α) :
    (t.set a v).get a = v := by cases a <;> rfl

theorem PerAxis.get_set_other {α : Type} (t : PerAxis α) {a b : Axis} (v : α) (h : b ≠ a) :
    (t.set a v).get b = t.get b := by cases a <;> cases b <;> first | rfl | exact absurd rfl h

theorem PerAxis.get_set {α : Type} (t : PerAxis α) (a b : Axis) (v : α) :
    (t.set a v).get b = if b = a then v else t.get b := by
  by_cases h : b = a
  · subst h; simp
  · simp [h, PerAxis.get_set_other t v h]

@[simp] theorem PerAxis.get_ofFn {α : Type} (f : Axis → α) (a : Axis) : (PerAxis.ofFn f).get a = f a := by
  cases a <;> rfl

@[simp] theorem PerAxis.get_fill {α : Type} (v : α) (a : Axis) : (PerAxis.fill v).get a = v := by
  cases a <;> rfl

/-- Two tables that read alike are equal. -/
theorem PerAxis.ext_get {α : Type} {t u : PerAxis α} (h : ∀ a, t.get a = u.get a) : t = u := by
  cases t; cases u
  simp only [PerAxis.mk.injEq]
  exact ⟨h .track, h .swing, h .lift, h .tele, h .pan, h .tilt, h .roll, h .zoom⟩

@[simp] theorem PerMaster.get_set_same {α : Type} (t : PerMaster α) (m : Master) (v : α) :
    (t.set m v).get m = v := by cases m <;> rfl

theorem PerMaster.get_set_other {α : Type} (t : PerMaster α) {m n : Master} (v : α) (h : n ≠ m) :
    (t.set m v).get n = t.get n := by cases m <;> cases n <;> first | rfl | exact absurd rfl h

theorem PerMaster.get_set {α : Type} (t : PerMaster α) (m n : Master) (v : α) :
    (t.set m v).get n = if n = m then v else t.get n := by
  by_cases h : n = m
  · subst h; simp
  · simp [h, PerMaster.get_set_other t v h]

@[simp] theorem PerMaster.set_set {α : Type} (t : PerMaster α) (m : Master) (v w : α) :
    (t.set m v).set m w = t.set m w := by cases m <;> rfl

@[simp] theorem PerMaster.get_ofFn {α : Type} (f : Master → α) (m : Master) :
    (PerMaster.ofFn f).get m = f m := by cases m <;> rfl

@[simp] theorem PerMaster.get_fill {α : Type} (v : α) (m : Master) :
    (PerMaster.fill v).get m = v := by cases m <;> rfl

/-- Two tables that read alike are equal. -/
theorem PerMaster.ext_get {α : Type} {t u : PerMaster α} (h : ∀ m, t.get m = u.get m) : t = u := by
  cases t; cases u
  simp only [PerMaster.mk.injEq]
  exact ⟨h .consoleA, h .consoleB, h .supervisor⟩

namespace Machine

@[simp] theorem mapAt_get {α : Type} (x : AxisSet) (f : α → α) (t : PerAxis α) (a : Axis) :
    (mapAt x f t).get a = if AxisSet.has x a then f (t.get a) else t.get a := by simp [mapAt]

@[simp] theorem eachZone_get {α : Type} (f : Fin 8 → α) (n : Fin 8) : (eachZone f)[n] = f n := by
  revert n
  intro ⟨n, h⟩
  have hall : n = 0 ∨ n = 1 ∨ n = 2 ∨ n = 3 ∨ n = 4 ∨ n = 5 ∨ n = 6 ∨ n = 7 := by omega
  rcases hall with h' | h' | h' | h' | h' | h' | h' | h' <;> subst h' <;> rfl

/-! ## Clamps -/

theorem clampTo_le {lo hi v : Int} (h : lo ≤ hi) : clampTo lo hi v ≤ hi := by
  unfold clampTo; split <;> (try split) <;> omega

theorem le_clampTo {lo hi v : Int} (h : lo ≤ hi) : lo ≤ clampTo lo hi v := by
  unfold clampTo; split <;> (try split) <;> omega

theorem clampTo_of_within {lo hi v : Int} (h : lo ≤ v) (h' : v ≤ hi) : clampTo lo hi v = v := by
  unfold clampTo; split <;> (try split) <;> omega

/-! ## Numbered tables (`Sparse`) -/

theorem readAt_of_absent {α : Type} (d : α) (k : Nat) (t : Sparse α) (h : ∀ e ∈ t, e.1 ≠ k) :
    readAt d k t = d := by
  induction t with
  | nil => rfl
  | cons e t ih =>
    obtain ⟨j, v⟩ := e
    have hj : j ≠ k := h (j, v) (by simp)
    simp [readAt, hj, ih fun e he => h e (by simp [he])]

/-- What a canonical table says of its numbers. -/
theorem tableWf_cons {α : Type} [DecidableEq α] {d : α} {n k : Nat} {v : α} {t : Sparse α} :
    tableWf d n ((k, v) :: t) = true ↔
      k < n ∧ v ≠ d ∧ (∀ e ∈ t, k < e.1) ∧ tableWf d n t = true := by
  simp [tableWf, and_assoc]

theorem eraseAt_mem {α : Type} {k : Nat} {t : Sparse α} {e : Nat × α} (h : e ∈ eraseAt k t) :
    e ∈ t := by
  induction t with
  | nil => simp [eraseAt] at h
  | cons p t ih =>
    obtain ⟨j, v⟩ := p
    simp only [eraseAt] at h
    split at h
    · exact List.mem_cons_of_mem _ h
    · rcases List.mem_cons.1 h with h | h
      · simp [h]
      · exact List.mem_cons_of_mem _ (ih h)

theorem eraseAt_wf {α : Type} [DecidableEq α] {d : α} {n k : Nat} {t : Sparse α}
    (h : tableWf d n t = true) : tableWf d n (eraseAt k t) = true := by
  induction t with
  | nil => rfl
  | cons p t ih =>
    obtain ⟨j, v⟩ := p
    rw [tableWf_cons] at h
    simp only [eraseAt]
    split
    · exact h.2.2.2
    · rw [tableWf_cons]
      exact ⟨h.1, h.2.1, fun e he => h.2.2.1 e (eraseAt_mem he), ih h.2.2.2⟩

theorem eraseAt_absent {α : Type} [DecidableEq α] {d : α} {n k : Nat} {t : Sparse α}
    (h : tableWf d n t = true) : ∀ e ∈ eraseAt k t, e.1 ≠ k := by
  induction t with
  | nil => simp [eraseAt]
  | cons p t ih =>
    obtain ⟨j, v⟩ := p
    rw [tableWf_cons] at h
    simp only [eraseAt]
    split
    · rename_i hj
      subst hj
      exact fun e he => Nat.ne_of_gt (h.2.2.1 e he)
    · rename_i hj
      intro e he
      rcases List.mem_cons.1 he with he | he
      · subst he; exact hj
      · exact ih h.2.2.2 e he

theorem insertAt_mem {α : Type} {k : Nat} {v : α} {t : Sparse α} {e : Nat × α}
    (h : e ∈ insertAt k v t) : e = (k, v) ∨ e ∈ t := by
  induction t with
  | nil => simpa [insertAt] using h
  | cons p t ih =>
    obtain ⟨j, w⟩ := p
    simp only [insertAt] at h
    split at h
    · simpa using h
    · rcases List.mem_cons.1 h with h | h
      · simp [h]
      · rcases ih h with h | h
        · exact .inl h
        · exact .inr (List.mem_cons_of_mem _ h)

theorem insertAt_wf {α : Type} [DecidableEq α] {d : α} {n k : Nat} {v : α} {t : Sparse α}
    (h : tableWf d n t = true) (hk : k < n) (hv : v ≠ d) (ha : ∀ e ∈ t, e.1 ≠ k) :
    tableWf d n (insertAt k v t) = true := by
  induction t with
  | nil => simp [insertAt, tableWf, hk, hv]
  | cons p t ih =>
    obtain ⟨j, w⟩ := p
    have hw := h
    rw [tableWf_cons] at h
    simp only [insertAt]
    split
    · rename_i hlt
      rw [tableWf_cons]
      refine ⟨hk, hv, fun e he => ?_, hw⟩
      rcases List.mem_cons.1 he with he | he
      · subst he; exact hlt
      · exact Nat.lt_trans hlt (h.2.2.1 e he)
    · rename_i hge
      have hne : j ≠ k := ha (j, w) (by simp)
      rw [tableWf_cons]
      refine ⟨h.1, h.2.1, fun e he => ?_, ih h.2.2.2 fun e he => ha e (by simp [he])⟩
      rcases insertAt_mem he with he | he
      · subst he; omega
      · exact h.2.2.1 e he

/-- A write keeps the canonical form. -/
theorem writeAt_wf {α : Type} [DecidableEq α] {d : α} {n k : Nat} {v : α} {t : Sparse α}
    (h : tableWf d n t = true) (hk : k < n) : tableWf d n (writeAt d k v t) = true := by
  simp only [writeAt]
  split
  · exact eraseAt_wf h
  · exact insertAt_wf (eraseAt_wf h) hk (by assumption) (eraseAt_absent h)

theorem readAt_eraseAt {α : Type} [DecidableEq α] {d : α} {n k : Nat} {t : Sparse α}
    (h : tableWf d n t = true) (j : Nat) :
    readAt d j (eraseAt k t) = if j = k then d else readAt d j t := by
  by_cases hj : j = k
  · subst hj
    simp [readAt_of_absent d j _ (eraseAt_absent h)]
  · simp only [hj, if_false]
    induction t with
    | nil => rfl
    | cons p t ih =>
      obtain ⟨i, w⟩ := p
      rw [tableWf_cons] at h
      simp only [eraseAt]
      split
      · rename_i hi
        subst hi
        simp [readAt, Ne.symm hj]
      · simp [readAt, ih h.2.2.2]

theorem readAt_insertAt {α : Type} {d : α} {k : Nat} {v : α} {t : Sparse α} (ha : ∀ e ∈ t, e.1 ≠ k)
    (j : Nat) : readAt d j (insertAt k v t) = if j = k then v else readAt d j t := by
  induction t with
  | nil => simp [insertAt, readAt, eq_comm]
  | cons p t ih =>
    obtain ⟨i, w⟩ := p
    have hik : i ≠ k := ha (i, w) (by simp)
    simp only [insertAt]
    split
    · simp only [readAt, eq_comm (a := k) (b := j)]
    · simp only [readAt, ih fun e he => ha e (by simp [he])]
      by_cases hij : i = j
      · subst hij; simp [hik]
      · simp [hij]

/-- A number reads what was written to it, and every other number as before. -/
theorem readAt_writeAt {α : Type} [DecidableEq α] {d : α} {n k : Nat} {v : α} {t : Sparse α}
    (h : tableWf d n t = true) (j : Nat) :
    readAt d j (writeAt d k v t) = if j = k then v else readAt d j t := by
  simp only [writeAt]
  split
  · rename_i hv
    subst hv
    exact readAt_eraseAt h j
  · rw [readAt_insertAt (eraseAt_absent h), readAt_eraseAt h]
    by_cases hj : j = k <;> simp [hj]

/-- The entries a write leaves: the one written and those there before. -/
theorem writeAt_mem {α : Type} [DecidableEq α] {d : α} {k : Nat} {v : α} {t : Sparse α} {e : Nat × α}
    (h : e ∈ writeAt d k v t) : e = (k, v) ∨ e ∈ t := by
  simp only [writeAt] at h
  split at h
  · exact .inr (eraseAt_mem h)
  · rcases insertAt_mem h with h | h
    · exact .inl h
    · exact .inr (eraseAt_mem h)

end Machine

end Sys2Proof
end

