-- ==== Sys2Proof/Laws/Ops.lean ====
section
/-! SUPPORT. What the shared operations can do: the clock, the placing of notices, the parts of an event, and
the handing of a request. -/

namespace Sys2Proof.Machine

/-! ## The clock -/

/-- A reading of the state that does not look at the timebase, the timecode unit or the bus keeps its value
while time passes. -/
theorem elapse_keeps {α : Type} (g : State → α) (ht : ∀ s x, g { s with timebase := x } = g s)
    (hc : ∀ s x, g { s with timecode := x } = g s) (hb : ∀ s x, g { s with bus := x } = g s)
    (dt : Nat) (s : State) : g (elapse dt s) = g s := by
  have h1 : g (passTimebase dt s) = g s := by
    unfold passTimebase; split <;> first | rfl | exact ht _ _
  have h2 : ∀ s, g (passGenlock dt s) = g s := by
    intro s; unfold passGenlock; split <;> first | rfl | exact hc _ _
  have h3 : ∀ s, g (passSync dt s) = g s := by
    intro s; unfold passSync; split <;> first | rfl | exact hb _ _
  unfold elapse
  rw [h3, h2, h1]

section Elapse
variable (dt : Nat) (s : State)

@[simp] theorem elapse_pending : (elapse dt s).pending = s.pending :=
  elapse_keeps State.pending (fun _ _ => rfl) (fun _ _ => rfl) (fun _ _ => rfl) dt s
@[simp] theorem elapse_startup : (elapse dt s).startup = s.startup :=
  elapse_keeps State.startup (fun _ _ => rfl) (fun _ _ => rfl) (fun _ _ => rfl) dt s
@[simp] theorem elapse_save : (elapse dt s).save = s.save :=
  elapse_keeps State.save (fun _ _ => rfl) (fun _ _ => rfl) (fun _ _ => rfl) dt s
@[simp] theorem elapse_memory : (elapse dt s).memory = s.memory :=
  elapse_keeps State.memory (fun _ _ => rfl) (fun _ _ => rfl) (fun _ _ => rfl) dt s
@[simp] theorem elapse_settings : (elapse dt s).settings = s.settings :=
  elapse_keeps State.settings (fun _ _ => rfl) (fun _ _ => rfl) (fun _ _ => rfl) dt s
@[simp] theorem elapse_store : (elapse dt s).store = s.store :=
  elapse_keeps State.store (fun _ _ => rfl) (fun _ _ => rfl) (fun _ _ => rfl) dt s
@[simp] theorem elapse_ports : (elapse dt s).ports = s.ports :=
  elapse_keeps State.ports (fun _ _ => rfl) (fun _ _ => rfl) (fun _ _ => rfl) dt s
@[simp] theorem elapse_authority : (elapse dt s).authority = s.authority :=
  elapse_keeps State.authority (fun _ _ => rfl) (fun _ _ => rfl) (fun _ _ => rfl) dt s
@[simp] theorem elapse_joysticks : (elapse dt s).joysticks = s.joysticks :=
  elapse_keeps State.joysticks (fun _ _ => rfl) (fun _ _ => rfl) (fun _ _ => rfl) dt s
@[simp] theorem elapse_cache : (elapse dt s).cache = s.cache :=
  elapse_keeps State.cache (fun _ _ => rfl) (fun _ _ => rfl) (fun _ _ => rfl) dt s
@[simp] theorem elapse_queue : (elapse dt s).queue = s.queue :=
  elapse_keeps State.queue (fun _ _ => rfl) (fun _ _ => rfl) (fun _ _ => rfl) dt s
@[simp] theorem elapse_nextMoveId : (elapse dt s).nextMoveId = s.nextMoveId :=
  elapse_keeps State.nextMoveId (fun _ _ => rfl) (fun _ _ => rfl) (fun _ _ => rfl) dt s
@[simp] theorem elapse_blend : (elapse dt s).blend = s.blend :=
  elapse_keeps State.blend (fun _ _ => rfl) (fun _ _ => rfl) (fun _ _ => rfl) dt s
@[simp] theorem elapse_couplings : (elapse dt s).couplings = s.couplings :=
  elapse_keeps State.couplings (fun _ _ => rfl) (fun _ _ => rfl) (fun _ _ => rfl) dt s
@[simp] theorem elapse_demand : (elapse dt s).demand = s.demand :=
  elapse_keeps State.demand (fun _ _ => rfl) (fun _ _ => rfl) (fun _ _ => rfl) dt s
@[simp] theorem elapse_clamped : (elapse dt s).clamped = s.clamped :=
  elapse_keeps State.clamped (fun _ _ => rfl) (fun _ _ => rfl) (fun _ _ => rfl) dt s
@[simp] theorem elapse_armed : (elapse dt s).armed = s.armed :=
  elapse_keeps State.armed (fun _ _ => rfl) (fun _ _ => rfl) (fun _ _ => rfl) dt s
@[simp] theorem elapse_faults : (elapse dt s).faults = s.faults :=
  elapse_keeps State.faults (fun _ _ => rfl) (fun _ _ => rfl) (fun _ _ => rfl) dt s
@[simp] theorem elapse_freeDraws : (elapse dt s).freeDraws = s.freeDraws :=
  elapse_keeps State.freeDraws (fun _ _ => rfl) (fun _ _ => rfl) (fun _ _ => rfl) dt s

/-- Time changes the period counter of the timecode unit alone. -/
theorem elapse_timecode : ∃ p, (elapse dt s).timecode = { s.timecode with period := p } := by
  have h : (elapse dt s).timecode = (passGenlock dt s).timecode := by
    simp only [elapse, passSync]
    split
    all_goals
      simp only [passGenlock]
      unfold passTimebase
      split <;> first | rfl | (split <;> rfl)
  rw [h]
  unfold passGenlock
  split
  · exact ⟨s.timecode.period, rfl⟩
  · exact ⟨_, rfl⟩

@[simp] theorem elapse_counter : (elapse dt s).timecode.counter = s.timecode.counter := by
  obtain ⟨p, h⟩ := elapse_timecode dt s; rw [h]
@[simp] theorem elapse_run : (elapse dt s).timecode.run = s.timecode.run := by
  obtain ⟨p, h⟩ := elapse_timecode dt s; rw [h]
@[simp] theorem elapse_lock : (elapse dt s).timecode.lock = s.timecode.lock := by
  obtain ⟨p, h⟩ := elapse_timecode dt s; rw [h]
@[simp] theorem elapse_good : (elapse dt s).timecode.good = s.timecode.good := by
  obtain ⟨p, h⟩ := elapse_timecode dt s; rw [h]

/-- Time changes the sync counter of the bus alone. -/
theorem elapse_bus : ∃ n, (elapse dt s).bus = { s.bus with syncCounter := n } := by
  have h : ∀ s' : State, s'.bus = s.bus → ∃ n, (passSync dt s').bus = { s.bus with syncCounter := n } := by
    intro s' hs
    unfold passSync
    split
    · exact ⟨s.bus.syncCounter, by rw [hs]⟩
    · exact ⟨_, by rw [← hs]⟩
  apply h
  unfold passGenlock
  split <;> (unfold passTimebase; split <;> rfl)

@[simp] theorem elapse_drives : (elapse dt s).bus.drives = s.bus.drives := by
  obtain ⟨n, h⟩ := elapse_bus dt s; rw [h]
@[simp] theorem elapse_latch : (elapse dt s).bus.latch = s.bus.latch := by
  obtain ⟨n, h⟩ := elapse_bus dt s; rw [h]
@[simp] theorem elapse_busState : (elapse dt s).bus.state = s.bus.state := by
  obtain ⟨n, h⟩ := elapse_bus dt s; rw [h]
@[simp] theorem elapse_sync : (elapse dt s).bus.sync = s.bus.sync := by
  obtain ⟨n, h⟩ := elapse_bus dt s; rw [h]
@[simp] theorem elapse_frameNumber : (elapse dt s).bus.frameNumber = s.bus.frameNumber := by
  obtain ⟨n, h⟩ := elapse_bus dt s; rw [h]
@[simp] theorem elapse_sequence : (elapse dt s).bus.sequence = s.bus.sequence := by
  obtain ⟨n, h⟩ := elapse_bus dt s; rw [h]

end Elapse

/-! ## Placing notices (R163) -/

/-- A notice given to a port leaves everything of it but the transmit queue and the notices-lost flag. -/
theorem Port.take_keeps (p : Port) (n : Notice) :
    (p.take n).link = p.link ∧ (p.take n).badRun = p.badRun ∧ (p.take n).overrun = p.overrun ∧
      (p.take n).rx = p.rx ∧ (p.take n).interval = p.interval ∧ (p.take n).countdown = p.countdown := by
  unfold Port.take
  split
  · simp
  · split <;> simp

/-- The transmit queue after a notice: as before, or with the notice at its end where it found a place. -/
theorem Port.take_tx (p : Port) (n : Notice) :
    (p.take n).tx = p.tx ∨
      (p.link = .opened ∧ noticesHeld p.tx < 4 ∧ p.tx.length < 8 ∧ (p.take n).tx = p.tx ++ [.notice n]) := by
  unfold Port.take
  split
  · simp
  · split
    · rename_i hl h
      exact .inr ⟨hl, h.1, h.2, rfl⟩
    · simp

theorem noticesHeld_append (l : List LinkFrame) (n : Notice) :
    noticesHeld (l ++ [.notice n]) = noticesHeld l + 1 := by
  simp only [noticesHeld, List.filter_append, List.length_append]
  rfl

/-- Placing notices leaves every reading of the state that does not look at the ports. -/
theorem placeNotices_keeps {α : Type} (g : State → α) (hp : ∀ s x, g { s with ports := x } = g s)
    (posts : List Post) (s : State) : g (placeNotices posts s) = g s := by
  unfold placeNotices
  induction posts generalizing s with
  | nil => rfl
  | cons p posts ih => rw [List.foldl_cons, ih]; exact hp _ _

section Place
variable (posts : List Post) (s : State)

@[simp] theorem placeNotices_pending : (placeNotices posts s).pending = s.pending :=
  placeNotices_keeps State.pending (fun _ _ => rfl) posts s
@[simp] theorem placeNotices_timebase : (placeNotices posts s).timebase = s.timebase :=
  placeNotices_keeps State.timebase (fun _ _ => rfl) posts s
@[simp] theorem placeNotices_startup : (placeNotices posts s).startup = s.startup :=
  placeNotices_keeps State.startup (fun _ _ => rfl) posts s
@[simp] theorem placeNotices_save : (placeNotices posts s).save = s.save :=
  placeNotices_keeps State.save (fun _ _ => rfl) posts s
@[simp] theorem placeNotices_memory : (placeNotices posts s).memory = s.memory :=
  placeNotices_keeps State.memory (fun _ _ => rfl) posts s
@[simp] theorem placeNotices_settings : (placeNotices posts s).settings = s.settings :=
  placeNotices_keeps State.settings (fun _ _ => rfl) posts s
@[simp] theorem placeNotices_store : (placeNotices posts s).store = s.store :=
  placeNotices_keeps State.store (fun _ _ => rfl) posts s
@[simp] theorem placeNotices_authority : (placeNotices posts s).authority = s.authority :=
  placeNotices_keeps State.authority (fun _ _ => rfl) posts s
@[simp] theorem placeNotices_joysticks : (placeNotices posts s).joysticks = s.joysticks :=
  placeNotices_keeps State.joysticks (fun _ _ => rfl) posts s
@[simp] theorem placeNotices_cache : (placeNotices posts s).cache = s.cache :=
  placeNotices_keeps State.cache (fun _ _ => rfl) posts s
@[simp] theorem placeNotices_queue : (placeNotices posts s).queue = s.queue :=
  placeNotices_keeps State.queue (fun _ _ => rfl) posts s
@[simp] theorem placeNotices_nextMoveId : (placeNotices posts s).nextMoveId = s.nextMoveId :=
  placeNotices_keeps State.nextMoveId (fun _ _ => rfl) posts s
@[simp] theorem placeNotices_blend : (placeNotices posts s).blend = s.blend :=
  placeNotices_keeps State.blend (fun _ _ => rfl) posts s
@[simp] theorem placeNotices_couplings : (placeNotices posts s).couplings = s.couplings :=
  placeNotices_keeps State.couplings (fun _ _ => rfl) posts s
@[simp] theorem placeNotices_demand : (placeNotices posts s).demand = s.demand :=
  placeNotices_keeps State.demand (fun _ _ => rfl) posts s
@[simp] theorem placeNotices_clamped : (placeNotices posts s).clamped = s.clamped :=
  placeNotices_keeps State.clamped (fun _ _ => rfl) posts s
@[simp] theorem placeNotices_armed : (placeNotices posts s).armed = s.armed :=
  placeNotices_keeps State.armed (fun _ _ => rfl) posts s
@[simp] theorem placeNotices_timecode : (placeNotices posts s).timecode = s.timecode :=
  placeNotices_keeps State.timecode (fun _ _ => rfl) posts s
@[simp] theorem placeNotices_bus : (placeNotices posts s).bus = s.bus :=
  placeNotices_keeps State.bus (fun _ _ => rfl) posts s
@[simp] theorem placeNotices_faults : (placeNotices posts s).faults = s.faults :=
  placeNotices_keeps State.faults (fun _ _ => rfl) posts s
@[simp] theorem placeNotices_freeDraws : (placeNotices posts s).freeDraws = s.freeDraws :=
  placeNotices_keeps State.freeDraws (fun _ _ => rfl) posts s

@[simp] theorem placeNotices_nil : placeNotices [] s = s := rfl

end Place

/-- A property of every port that survives a notice survives any list of notices. -/
theorem placeNotices_ports {P : Port → Prop} (hP : ∀ p n, P p → P (p.take n)) (posts : List Post)
    {s : State} (hs : ∀ m, P (s.ports.get m)) : ∀ m, P ((placeNotices posts s).ports.get m) := by
  unfold placeNotices
  induction posts generalizing s with
  | nil => exact hs
  | cons p posts ih =>
    rw [List.foldl_cons]
    apply ih
    intro m
    simp only [placeNotice, State.setPort, PerMaster.get_set]
    split
    · exact hP _ _ (hs _)
    · exact hs m

/-- Notices join a transmit queue behind the frames already there. -/
theorem placeNotices_tx (posts : List Post) (s : State) (m : Master) :
    ∃ l : List LinkFrame, ((placeNotices posts s).ports.get m).tx = (s.ports.get m).tx ++ l ∧
      l.all LinkFrame.isNotice = true := by
  unfold placeNotices
  induction posts generalizing s with
  | nil => exact ⟨[], by simp, rfl⟩
  | cons p posts ih =>
    rw [List.foldl_cons]
    obtain ⟨l, hl, hn⟩ := ih (placeNotice s p)
    rw [hl]
    simp only [placeNotice, State.setPort, PerMaster.get_set]
    split
    · rename_i hm
      subst hm
      rcases Port.take_tx (s.ports.get p.dest) p.notice with h | ⟨_, _, _, h⟩
      · exact ⟨l, by rw [h], hn⟩
      · exact ⟨.notice p.notice :: l, by rw [h]; simp, by simp [hn, LinkFrame.isNotice]⟩
    · exact ⟨l, rfl, hn⟩

/-! ## Parts of an event -/

@[simp] theorem quiet_state (s : State) : (quiet s).state = s := rfl
@[simp] theorem quiet_posts (s : State) : (quiet s).posts = [] := rfl
@[simp] theorem andThen_state (e : Emit) (f : State → Emit) : (e.andThen f).state = (f e.state).state := rfl
@[simp] theorem andThen_posts (e : Emit) (f : State → Emit) :
    (e.andThen f).posts = e.posts ++ (f e.state).posts := rfl
@[simp] theorem quiet_settle (s : State) : (quiet s).settle = s := rfl

theorem whenever_true (f : State → Emit) (s : State) : whenever true f s = f s := rfl
theorem whenever_false (f : State → Emit) (s : State) : whenever false f s = quiet s := rfl

/-- What a part that leaves a property leaves when it is taken or not. -/
theorem whenever_keeps {P : State → Prop} {f : State → Emit} (hf : ∀ s, P s → P (f s).state) (b : Bool)
    {s : State} (hs : P s) : P (whenever b f s).state := by
  cases b
  · exact hs
  · exact hf s hs

/-- A property that each item's part leaves is left by all of them. -/
theorem emitEach_keeps {α : Type} {P : State → Prop} {f : α → State → Emit}
    (hf : ∀ x s, P s → P (f x s).state) (l : List α) {s : State} (hs : P s) :
    P (emitEach l f s).state := by
  induction l generalizing s with
  | nil => exact hs
  | cons x l ih => exact ih (hf x s hs)

/-! ## Requests and events -/

@[simp] theorem accept_state (s : State) (d : ReplyData) : (accept s d).state = s := rfl
@[simp] theorem accept_posts (s : State) (d : ReplyData) : (accept s d).posts = [] := rfl
@[simp] theorem accept_reply (s : State) (d : ReplyData) :
    (accept s d).reply = { refusal := none, omitted := 0, data := d } := rfl
@[simp] theorem refuse_state (s : State) (c : RefusalCode) : (refuse s c).state = s := rfl
@[simp] theorem refuse_posts (s : State) (c : RefusalCode) : (refuse s c).posts = [] := rfl
@[simp] theorem refuse_reply (s : State) (c : RefusalCode) :
    (refuse s c).reply = { refusal := some c, omitted := 0, data := .none } := rfl
@[simp] theorem acceptWith_state (e : Emit) (d : ReplyData) : (acceptWith e d).state = e.state := rfl
@[simp] theorem acceptWith_posts (e : Emit) (d : ReplyData) : (acceptWith e d).posts = e.posts := rfl
@[simp] theorem acceptWith_reply (e : Emit) (d : ReplyData) :
    (acceptWith e d).reply = { refusal := none, omitted := 0, data := d } := rfl

/-- An event answers a next state. -/
theorem event_next (dt : Nat) (f : State → Emit) (s : State) :
    event dt f s = .next (f (elapse dt s)).settle := rfl

/-- A request its port hands is acted on in the state the port leaves. -/
theorem handed_taken {h : Header} {i : Instr} {act : State → State} {s s0 : State}
    (ht : takenIn h i s = some s0) : handed h i act s = .next (act s0) := by
  unfold takenIn at ht
  unfold handed
  simp only at ht ⊢
  split at ht
  · rename_i hc
    split
    · rename_i hl
      rw [hc.1] at hl
      cases hl
    · split at ht
      · rename_i hr
        rw [if_pos hr, if_pos hc.2]
        injection ht with ht
        rw [ht]
      · rename_i hr
        rw [if_neg hr]
        split at ht
        · rename_i he
          rw [if_pos ⟨he, hc.2⟩]
          injection ht with ht
          rw [ht]
        · cases ht
  · cases ht

/-- A request its port does not hand leaves time passed, or the request in the buffer or dropped. -/
theorem handed_waits {h : Header} {i : Instr} {act : State → State} {s : State}
    (ht : takenIn h i s = none) :
    handed h i act s = .next (elapse h.elapsed s) ∨
      ((s.ports.get h.link).link = .opened ∧
        handed h i act s = .next (receiveRequest h.link i (elapse h.elapsed s))) := by
  unfold takenIn at ht
  unfold handed
  simp only [elapse_ports] at ht ⊢
  cases hl : (s.ports.get h.link).link with
  | closed => exact .inl rfl
  | opened =>
    simp only [hl, true_and] at ht ⊢
    split
    · rename_i hr
      split
      · rename_i hx
        simp only [hr, hx, if_true] at ht
        cases ht
      · exact .inl rfl
    · rename_i hr
      split
      · rename_i he
        simp [he.2, he.1] at ht
      · exact .inr rfl

/-- A request that its port hands is answered. -/
theorem request_taken {h : Header} {i : Instr} {body : State → Response} {s s0 : State}
    (ht : takenIn h i s = some s0) : request h i body s = .next (answer h (body s0)) := handed_taken ht

/-- A request answers a next state in every state. -/
theorem handed_next (h : Header) (i : Instr) (act : State → State) (s : State) :
    ∃ t, handed h i act s = .next t := by
  cases ht : takenIn h i s with
  | some s0 => exact ⟨_, handed_taken ht⟩
  | none =>
    rcases handed_waits (act := act) ht with h | ⟨_, h⟩
    · exact ⟨_, h⟩
    · exact ⟨_, h⟩

/-- The state in which a request is taken: time has passed and the requester's port has let go of it. -/
theorem takenIn_some {h : Header} {i : Instr} {s s0 : State} (ht : takenIn h i s = some s0) :
    ∃ p, s0 = (elapse h.elapsed s).setPort h.link p ∧ p.link = .opened ∧ p.tx.length < 8 ∧
      p.tx = (s.ports.get h.link).tx ∧
      (p = { s.ports.get h.link with rx := (s.ports.get h.link).rx.tail } ∨
        p = { s.ports.get h.link with badRun := 0 }) := by
  unfold takenIn at ht
  simp only [elapse_ports] at ht
  split at ht
  · rename_i hc
    split at ht
    · injection ht with ht
      exact ⟨_, ht.symm, hc.1, hc.2, rfl, .inl rfl⟩
    · split at ht
      · injection ht with ht
        exact ⟨_, ht.symm, hc.1, hc.2, rfl, .inr rfl⟩
      · cases ht
  · cases ht

end Sys2Proof.Machine
end

