-- ==== Sys2Proof/Laws/Moves.lean ====
section
/-! SUPPORT. What withdrawal, removal, a raise of fault control and a frame can change: each leaves every
reading of the state that does not look at the fields it writes. -/

namespace Sys2Proof.Machine

/-! ## Removal and withdrawal -/

@[simp] theorem removeMoves_queue (p : Move → Bool) (o : Move → MoveOutcome) (s : State) :
    (removeMoves p o s).state.queue = s.queue.filter fun m => !(p m) := rfl

@[simp] theorem withdrawWith_queue (x : AxisSet) (o : Move → MoveOutcome) (s : State) :
    (withdrawWith x o s).state.queue =
      (s.queue.map (Move.withdraw x)).filter fun m => !(Move.emptied m) := rfl

@[simp] theorem withdraw_queue (x : AxisSet) (s : State) :
    (withdraw x s).state.queue =
      (s.queue.map (Move.withdraw x)).filter fun m => !(Move.emptied m) := rfl

@[simp] theorem Move.withdraw_id (x : AxisSet) (m : Move) : (m.withdraw x).id = m.id := rfl
@[simp] theorem Move.withdraw_requester (x : AxisSet) (m : Move) :
    (m.withdraw x).requester = m.requester := rfl
@[simp] theorem Move.withdraw_state (x : AxisSet) (m : Move) : (m.withdraw x).state = m.state := rfl
@[simp] theorem Move.withdraw_record (x : AxisSet) (m : Move) : (m.withdraw x).record = m.record := rfl
@[simp] theorem Move.withdraw_axes (x : AxisSet) (m : Move) :
    (m.withdraw x).axes = m.axes &&& ~~~x := rfl

/-! ## Readings that some writes leave -/

/-- A reading of the state that does not look at the move queue. -/
structure OffQueue {α : Type} (g : State → α) : Prop where
  queue : ∀ s x, g { s with queue := x } = g s

/-- A reading that does not look at what fault control writes: the queue, the blend records, the bus and the
fault unit. -/
structure OffFaults {α : Type} (g : State → α) : Prop extends OffQueue g where
  blend : ∀ s x, g { s with blend := x } = g s
  bus : ∀ s x, g { s with bus := x } = g s
  faults : ∀ s x, g { s with faults := x } = g s

/-- A reading that does not look at what a frame writes besides. -/
structure OffFrame {α : Type} (g : State → α) : Prop extends OffFaults g where
  demand : ∀ s x, g { s with demand := x } = g s
  clamped : ∀ s x, g { s with clamped := x } = g s
  armed : ∀ s x, g { s with armed := x } = g s
  ports : ∀ s x, g { s with ports := x } = g s

section Keeps
variable {α : Type} {g : State → α}

/-- Removal changes the queue alone. -/
theorem removeMoves_keeps (o : OffQueue g) (p : Move → Bool) (f : Move → MoveOutcome) (s : State) :
    g (removeMoves p f s).state = g s := o.queue _ _

/-- Withdrawal changes the queue alone. -/
theorem withdrawWith_keeps (o : OffQueue g) (x : AxisSet) (f : Move → MoveOutcome) (s : State) :
    g (withdrawWith x f s).state = g s := (removeMoves_keeps o _ _ _).trans (o.queue _ _)

theorem withdraw_keeps (o : OffQueue g) (x : AxisSet) (s : State) : g (withdraw x s).state = g s :=
  withdrawWith_keeps o _ _ _

/-! ## Fault control -/

theorem releaseDrives_keeps (o : OffFaults g) (s : State) : g (releaseDrives s) = g s := o.bus _ _

theorem enterReleased_keeps (o : OffFaults g) (s : State) : g (enterReleased s).state = g s :=
  (removeMoves_keeps o.toOffQueue _ _ _).trans ((o.faults _ _).trans (o.bus _ _))

theorem haltEverything_keeps (o : OffFaults g) (s : State) : g (haltEverything s).state = g s :=
  (o.blend _ _).trans ((o.queue _ _).trans (removeMoves_keeps o.toOffQueue _ _ _))

theorem holdAction_keeps (o : OffFaults g) (x : AxisSet) (s : State) :
    g (holdAction x s).state = g s := (withdraw_keeps o.toOffQueue _ _).trans (o.blend _ _)

theorem beginStop_keeps (o : OffFaults g) (s : State) : g (beginStop s).state = g s := by
  unfold beginStop
  split
  · exact o.faults _ _
  · exact enterReleased_keeps o s

theorem safeStopEntry_keeps (o : OffFaults g) (c : StopCause) (s : State) :
    g (safeStopEntry c s).state = g s := by
  unfold safeStopEntry
  split
  · exact (beginStop_keeps o _).trans ((o.faults _ _).trans (haltEverything_keeps o s))
  · rfl

theorem releaseAction_keeps (o : OffFaults g) (s : State) : g (releaseAction s).state = g s := by
  unfold releaseAction
  split
  · exact (enterReleased_keeps o _).trans ((o.faults _ _).trans (haltEverything_keeps o s))
  · exact (enterReleased_keeps o _).trans (o.faults _ _)
  · rfl

theorem raiseRecord_keeps (o : OffFaults g) (src : FaultSource) (info : RaiseInfo) (s : State) :
    g (raiseRecord src info s) = g s := by
  unfold raiseRecord
  refine (o.faults _ _).trans ?_
  split
  · rfl
  · exact o.faults _ _

theorem whenever_same {f : State → Emit} (hf : ∀ s, g (f s).state = g s) (b : Bool) (s : State) :
    g (whenever b f s).state = g s := by
  cases b
  · rfl
  · exact hf s

theorem startEscalation_keeps (o : OffFaults g) (s : State) : g (startEscalation s) = g s := by
  unfold startEscalation
  split <;> first | rfl | exact o.faults _ _

theorem raiseActions_keeps (o : OffFaults g) (src : FaultSource) (info : RaiseInfo) (first : Bool)
    (s : State) : g (raiseActions src info first s).state = g s := by
  have h : g (((whenever (actionSet s src).hold (holdAction (holdScope src info s)) s).andThen
      (whenever (actionSet s src).safeStop (safeStopEntry (.source src)))).andThen
      (whenever (src == .estop) releaseAction)).state = g s :=
    (whenever_same (releaseAction_keeps o) _ _).trans
      ((whenever_same (safeStopEntry_keeps o _) _ _).trans (whenever_same (holdAction_keeps o _) _ _))
  unfold raiseActions
  simp only
  split
  · exact (startEscalation_keeps o _).trans h
  · exact h

/-- A raise changes the queue, the blend records, the bus and the fault unit alone. -/
theorem raise_keeps (o : OffFaults g) (src : FaultSource) (info : RaiseInfo) (s : State) :
    g (raise src info s).state = g s :=
  (raiseActions_keeps o _ _ _ _).trans (raiseRecord_keeps o _ _ _)

/-- Parts that each leave a reading of the state leave it together. -/
theorem emitEach_same {β : Type} {f : β → State → Emit} (hf : ∀ x s, g (f x s).state = g s)
    (l : List β) (s : State) : g (emitEach l f s).state = g s := by
  induction l generalizing s with
  | nil => rfl
  | cons x l ih => exact (ih _).trans (hf x s)

/-! ## A frame -/

theorem writePresets_keeps (o : OffFaults g) (x : AxisSet) (c : Segment) (s : State) :
    g (writePresets x c s) = g s := o.blend _ _

theorem advance_keeps (o : OffFaults g) (m : Move) (c : Segment) (s : State) :
    g (advance m c s) = g s := (writePresets_keeps o _ _ _).trans (o.queue _ _)

theorem begin_keeps (o : OffFaults g) (k : PerAxis Int) (n : Nat) (kf : Keyframe) (m : Move)
    (s : State) : g (begin k n kf m s) = g s := advance_keeps o _ _ _

theorem boundary_keeps (o : OffFaults g) (k : PerAxis Int) (m : Move) (s : State) :
    g (boundary k m s).state = g s := by
  unfold boundary
  split
  · exact (removeMoves_keeps o.toOffQueue _ _ _).trans (o.blend _ _)
  · split
    · exact begin_keeps o _ _ _ _ _
    · exact o.queue _ _

theorem takeMove_keeps (o : OffFaults g) (k : PerAxis Int) (m : Move) (s : State) :
    g (takeMove k m s).state = g s := by
  unfold takeMove
  split
  · split
    · rfl
    · split
      · exact advance_keeps o _ _ _
      · exact boundary_keeps o _ _ _
  · split
    · rfl
    · split
      · exact begin_keeps o _ _ _ _ _
      · rfl
  · rfl
  · rfl

theorem startMove_keeps (o : OffFaults g) (k : PerAxis Int) (m : Move) (s : State) :
    g (startMove k m s).state = g s := by
  unfold startMove
  split
  · rfl
  · simp only
    split
    · exact (begin_keeps o _ _ _ _ _).trans (o.blend _ _)
    · exact (o.blend _ _).trans ((o.queue _ _).trans (o.blend _ _))

theorem startPass_keeps (o : OffFaults g) (k : PerAxis Int) (l : List Move) (x : AxisSet) (s : State) :
    g (startPass k x l s).state = g s := by
  induction l generalizing x s with
  | nil => rfl
  | cons m l ih => exact (ih _ _).trans (whenever_same (startMove_keeps o k m) _ _)

/-- The preset step changes the queue and the blend records alone. -/
theorem presetStep_keeps (o : OffFaults g) (k : PerAxis Int) (s : State) :
    g (presetStep k s).state = g s :=
  (startPass_keeps o _ _ _ _).trans (emitEach_same (takeMove_keeps o k) _ _)

theorem stageTwo_keeps (o : OffFaults g) (x : AxisSet) (k : PerAxis Int) (s : State) :
    g (stageTwo x k s).state = g s := (withdraw_keeps o.toOffQueue _ _).trans (o.blend _ _)

/-- The checks of a frame change the queue, the blend records, the bus and the fault unit alone. -/
theorem feedbackChecks_keeps (o : OffFaults g) (before : PerAxis DriveState)
    (w : PerAxis (Option FeedbackWord)) (s : State) : g (feedbackChecks before w s).state = g s := by
  have h1 : ∀ a s, g (echoCheck w a s).state = g s := fun a s =>
    (whenever_same (raise_keeps o _ _) _ _).trans (o.bus _ _)
  have h2 : ∀ a s, g (driveStateCheck before a s).state = g s := fun a s =>
    whenever_same (raise_keeps o _ _) _ _
  have h3 : ∀ a s, g (followingCheck w a s).state = g s := fun a s =>
    (whenever_same (raise_keeps o _ _) _ _).trans (o.bus _ _)
  unfold feedbackChecks
  exact (emitEach_same h3 _ _).trans ((emitEach_same h2 _ _).trans (emitEach_same h1 _ _))

theorem safeStopRest_keeps (o : OffFaults g) (s : State) : g (safeStopRest s).state = g s :=
  whenever_same (enterReleased_keeps o) _ _

theorem writeDemands_keeps (o : OffFrame g) (x : AxisSet) (k d : PerAxis Int) (s : State) :
    g (writeDemands x k d s) = g s :=
  (o.blend { s with demand := (writeDemands x k d s).demand } (writeDemands x k d s).blend).trans
    (o.demand s _)

theorem releasedTracking_keeps (o : OffFrame g) (x : AxisSet) (k : PerAxis Int) (s : State) :
    g (releasedTracking x k s) = g s :=
  (o.clamped { s with demand := (releasedTracking x k s).demand, blend := (releasedTracking x k s).blend }
    (releasedTracking x k s).clamped).trans
    ((o.blend { s with demand := (releasedTracking x k s).demand } _).trans (o.demand s _))

theorem judgeClamp_keeps (o : OffFrame g) (b : Bool) (a : Axis) (s : State) :
    g (judgeClamp b a s).state = g s :=
  (whenever_same (raise_keeps o.toOffFaults _ _) _ _).trans (o.clamped _ _)

theorem limitStage_keeps (o : OffFrame g) (x : AxisSet) (k : PerAxis Int) (s : State) :
    g (limitStage x k s).state = g s := by
  have h1 : ∀ (t : AxisSet) a s, g (judgeClamp (AxisSet.has t a) a s).state = g s :=
    fun t a s => judgeClamp_keeps o _ a s
  have h2 : ∀ n s, g (raiseZoneEntry n s).state = g s :=
    fun n s => raise_keeps o.toOffFaults _ _ _
  unfold limitStage
  simp only [andThen_state, quiet_state]
  exact (writeDemands_keeps o _ _ _ _).trans ((o.armed _ _).trans
    ((emitEach_same h2 _ _).trans (emitEach_same (h1 _) _ _)))

theorem computeDemands_keeps (o : OffFrame g) (x y : AxisSet) (k : PerAxis Int) (s : State) :
    g (computeDemands x y k s).state = g s := by
  unfold computeDemands
  simp only [andThen_state, quiet_state]
  exact (releasedTracking_keeps o _ _ _).trans ((limitStage_keeps o _ _ _).trans
    ((stageTwo_keeps o.toOffFaults _ _ _).trans (presetStep_keeps o.toOffFaults _ _)))

theorem countReport_keeps (o : OffFrame g) (m : Master) (s : State) :
    g (countReport m s).state = g s := by
  unfold countReport
  simp only
  split
  · rfl
  · split <;> exact o.ports _ _

theorem frameComputation_keeps (o : OffFrame g) (s : State) : g (frameComputation s).state = g s := by
  unfold frameComputation
  simp only [andThen_state, quiet_state]
  exact (emitEach_same (countReport_keeps o) _ _).trans ((safeStopRest_keeps o.toOffFaults _).trans
    ((o.armed _ _).trans ((removeMoves_keeps o.toOffQueue _ _ _).trans (computeDemands_keeps o _ _ _ _))))

/-- A frame changes the queue, the blend records, the bus, the fault unit, the demand histories, the clamped
conditions, the armed flags and the ports alone. -/
theorem frameOn_keeps (o : OffFrame g) (w : PerAxis (Option FeedbackWord)) (s : State) :
    g (frameOn w s).state = g s := by
  unfold frameOn
  simp only [andThen_state]
  refine (frameComputation_keeps o _).trans ((o.bus _ _).trans
    ((feedbackChecks_keeps o.toOffFaults _ _ _).trans ?_))
  exact (show g (receive w (transmit s)) = g (transmit s) from o.bus _ _).trans
    ((show g (transmit s) = g { s with bus := (transmit s).bus } from rfl).trans (o.bus _ _))

theorem frame_keeps (o : OffFrame g) (w : SlotWords) (s : State) : g (frame w s).state = g s :=
  frameOn_keeps o _ s

end Keeps

end Sys2Proof.Machine
end

