-- ==== Sys2Proof/Laws/Requests.lean ====
section
/-! SUPPORT. How a law of the state passes through a request or an event: it is enough that time, the ports and
the command's own body leave it. -/

namespace Sys2Proof.Machine

/-- A law that neither time nor the ports can break. -/
structure Steady (P : State → Prop) : Prop where
  time : ∀ dt s, P s → P (elapse dt s)
  ports : ∀ s x, P s → P { s with ports := x }

section Laws
variable {P : State → Prop} {s t : State}

theorem Steady.setPort (st : Steady P) (m : Master) (p : Port) (h : P s) : P (s.setPort m p) :=
  st.ports _ _ h

theorem Steady.placeNotices (st : Steady P) (posts : List Post) (h : P s) :
    P (placeNotices posts s) := by
  unfold Machine.placeNotices
  induction posts generalizing s with
  | nil => exact h
  | cons p posts ih => exact ih (st.ports _ _ h)

theorem Steady.answer (st : Steady P) (h : Header) (r : Response) (hr : P r.state) : P (answer h r) :=
  st.placeNotices _ (st.ports _ _ hr)

theorem Steady.settle (st : Steady P) (e : Emit) (h : P e.state) : P e.settle := st.placeNotices _ h

theorem Steady.receiveRequest (st : Steady P) (m : Master) (i : Instr) (h : P s) :
    P (receiveRequest m i s) := by
  unfold Machine.receiveRequest
  simp only
  split <;> exact st.ports _ _ h

/-- A law a request's taking leaves is left by the request. -/
theorem Steady.handed (st : Steady P) {h : Header} {i : Instr} {act : State → State}
    (ha : ∀ s, P s → P (act s)) (hs : P s) (e : handed h i act s = .next t) : P t := by
  cases ht : takenIn h i s with
  | some s0 =>
    rw [handed_taken ht] at e
    injection e with e
    subst e
    obtain ⟨p, h0, _⟩ := takenIn_some ht
    rw [h0]
    exact ha _ (st.setPort _ _ (st.time _ _ hs))
  | none =>
    rcases handed_waits (act := act) ht with h' | ⟨_, h'⟩
    · rw [h'] at e
      injection e with e
      subst e
      exact st.time _ _ hs
    · rw [h'] at e
      injection e with e
      subst e
      exact st.receiveRequest _ _ (st.time _ _ hs)

/-- A law a request's body leaves is left by the request. -/
theorem Steady.request (st : Steady P) {h : Header} {i : Instr} {body : State → Response}
    (hb : ∀ s, P s → P (body s).state) (hs : P s) (e : request h i body s = .next t) : P t :=
  st.handed (fun s' hs' => st.answer _ _ (hb s' hs')) hs e

/-- A law an event's part leaves is left by the event. -/
theorem Steady.event (st : Steady P) {dt : Nat} {f : State → Emit} (hf : ∀ s, P s → P (f s).state)
    (hs : P s) (e : event dt f s = .next t) : P t := by
  rw [event_next] at e
  injection e with e
  subst e
  exact st.settle _ (hf _ (st.time _ _ hs))

theorem privileged_law {h : Header} {body : State → Response} (hb : ∀ s, P s → P (body s).state)
    (s : State) (hs : P s) : P (privileged h body s).state := by
  unfold privileged
  split
  · exact hb s hs
  · exact hs

end Laws

/-! ## What every command is -/

/-- A request is handed by its port, as the receive buffer holds it. -/
theorem exec_request {i : Instr} {h : Header} (hi : requestHeader i = some h) :
    ∃ act, ∀ s, exec i s = handed h i.unstamped act s := by
  cases i <;> simp only [requestHeader, Option.some.injEq, reduceCtorEq] at hi <;> subst hi <;>
    simp only [exec, request, Instr.unstamped,
      execClaim, execRelease, execYield, execSeize, execWithdrawWait, execQueryAuthority,
      execSetMode, execTakeLive, execEnable, execDisable, execStorePreset, execCapture,
      execAppendKeyframe, execErasePreset, execQueryPreset, execRecall, execGo, execAbort,
      execSpeed, execQueryQueue, execQueryLimits, execQueryZones, execQueryJoystick,
      execQueryDirectory, execQueryCueList, execQueryViews, execQueryCache, execQueryBlend,
      execQueryCoupling, execQueryTimecode, execQueryBus, execQueryFaults, execStatus,
      execSetReport, execReleaseClear, execSetProfile, execSetStaleLimit, execSetView,
      execPurge, execSetFitted, execSetLimits, execSetZone, execSetBankEntry, execSetCueEntry,
      execSetCoupling, execTcRun, execTcStop, execSetTimecode, execOffsetTimecode, execSetRate,
      execSetBusConfig, execBusStart, execBusStop, execSetFaultActions, execSetFaultTimers,
      execFaultClear, execSaveStore, execRestart] <;>
    exact ⟨_, fun _ => rfl⟩

/-- A command that is no request is an event. -/
theorem exec_event {i : Instr} (hi : requestHeader i = none) :
    ∃ dt f, ∀ s, exec i s = event dt f s := by
  cases i <;> simp only [requestHeader, reduceCtorEq] at hi <;>
    simp only [exec,
      execJoy, execFrameReceived, execFrameLeavesQueue, execPowerOn, execLowSupply,
      execResetPin, execPowerUpHoldEnd, execConfigurationLoad, execEstop, execGenlockPulse,
      execGenlockLossEvent, execFrameStart, execBusSyncEdge, execBusSyncLost, execWaitExpiry,
      execStaleEntry, execEscalationExpiry, execStopTimerExpiry, execSaveCompletion,
      execEstopInactive, execResetRelease, execSaveMarkerWritten] <;>
    exact ⟨_, _, fun _ => rfl⟩

/-! ## The state after an answer -/

theorem answer_accept (h : Header) (s : State) (d : ReplyData) : answer h (accept s d) = okay h d s := rfl

theorem answer_acceptWith (h : Header) (e : Emit) (d : ReplyData) :
    answer h (acceptWith e d) = placeNotices e.posts (okay h d e.state) := rfl

theorem answer_refuse (h : Header) (s : State) (c : RefusalCode) :
    answer h (refuse s c) = refusedWith h c s := rfl

theorem privileged_yes {h : Header} {s : State} (hp : actsAsSupervisor s h.link = true)
    (body : State → Response) : privileged h body s = body s := by
  unfold privileged
  rw [if_pos hp]

theorem privileged_no {h : Header} {s : State} (hp : actsAsSupervisor s h.link = false)
    (body : State → Response) : privileged h body s = refuse s .notPermitted := by
  unfold privileged
  rw [hp]
  rfl

end Sys2Proof.Machine
end

