-- ==== Sys2Proof/Laws/Bodies.lean ====
section
/-! SUPPORT. The footprint of every command: the fields its own part may write. A reading of the state that
does not look at them is left as it was, whatever the command decides. -/

namespace Sys2Proof.Machine

section Bodies
variable {α : Type} {g : State → α}

/-! ## Authority (chapter 2) -/

theorem authorityRequest_keeps (o : OffQueue g) (hb : ∀ s x, g { s with blend := x } = g s)
    (ha : ∀ s x, g { s with authority := x } = g s)
    (x : AxisSet) (b : Bool) (v : State → Axis → Verdict) (s : State) :
    g (authorityRequest x b v s).state = g s := by
  unfold authorityRequest
  split
  · rfl
  · split
    · exact (hb _ _).trans ((withdraw_keeps o _ _).trans (ha _ _))
    · rfl

theorem queryAuthority_same (x : AxisSet) (s : State) : (queryAuthority x s).state = s := by
  unfold queryAuthority; split <;> rfl

theorem waitExpiry_keeps (ha : ∀ s x, g { s with authority := x } = g s) (m : Master) (s : State) :
    g (waitExpiry m s).state = g s := by
  unfold waitExpiry
  split
  · rfl
  · exact ha _ _

/-! ## Joystick (chapter 3) -/

theorem receiveJoy_keeps (hj : ∀ s x, g { s with joysticks := x } = g s)
    (hp : ∀ s x, g { s with ports := x } = g s) (m : Master) (d : PerAxis Int) (s : State) :
    g (receiveJoy m d s) = g s := by
  unfold receiveJoy
  split
  · rfl
  · exact (hj _ _).trans (hp _ _)

theorem enterStale_keeps (o : OffFaults g) (hj : ∀ s x, g { s with joysticks := x } = g s) (m : Master)
    (s : State) : g (enterStale m s).state = g s := (raise_keeps o _ _ _).trans (hj _ _)

theorem staleEntry_keeps (o : OffFaults g) (hj : ∀ s x, g { s with joysticks := x } = g s) (m : Master)
    (s : State) : g (staleEntry m s).state = g s := by
  unfold staleEntry
  split
  · split
    · exact enterStale_keeps o hj m s
    · rfl
  · rfl

theorem rejudgeStale_keeps (o : OffFaults g) (hj : ∀ s x, g { s with joysticks := x } = g s) (m : Master)
    (l : Option Nat) (s : State) : g (rejudgeStale m l s).state = g s := by
  unfold rejudgeStale
  split
  · split
    · exact enterStale_keeps o hj m s
    · rfl
  · rfl
  · rfl
  · exact hj _ _

theorem setProfile_keeps (hs : ∀ s x, g { s with settings := x } = g s) (r : Master)
    (m a d e k i : Nat) (s : State) : g (setProfile r m a d e k i s).state = g s := by
  unfold setProfile
  split
  · rfl
  · split
    · rfl
    · split
      · exact hs _ _
      · rfl

theorem setStaleLimit_keeps (o : OffFaults g) (hj : ∀ s x, g { s with joysticks := x } = g s)
    (hs : ∀ s x, g { s with settings := x } = g s) (r : Master) (m l : Nat) (s : State) :
    g (setStaleLimit r m l s).state = g s := by
  unfold setStaleLimit
  split
  · rfl
  · split
    · split
      · rfl
      · exact (rejudgeStale_keeps o hj _ _ _).trans (hs _ _)
    · rfl

theorem queryJoystick_same (m : Nat) (s : State) : (queryJoystick m s).state = s := by
  unfold queryJoystick; split <;> rfl

/-! ## Resolution and the store (chapters 4 and 5) -/

theorem resolve_keeps (hc : ∀ s x, g { s with cache := x } = g s) (m : Master) (b p : Nat) (s : State) :
    g (resolve m b p s).1 = g s := by
  unfold resolve
  simp only
  split
  · split
    · exact hc _ _
    · split
      · rfl
      · exact hc _ _
  · rfl

theorem purge_keeps (hc : ∀ s x, g { s with cache := x } = g s) (m : Master) (n : Nat) (s : State) :
    g (purge m n s).state = g s := by
  unfold purge
  split
  · rfl
  · split
    · rfl
    · exact hc _ _

/-- An edit request leaves what its resolution and its write leave. -/
theorem edit_keeps (hc : ∀ s x, g { s with cache := x } = g s) {w : State → Nat → Response}
    (hw : ∀ s n, g (w s n).state = g s) (m : Master) (b p : Nat) (a : Option RefusalCode)
    (own : State → Nat → Option RefusalCode) (s : State) : g (edit m b p a own w s).state = g s := by
  have hr := resolve_keeps hc m b p s
  unfold edit
  split
  · rfl
  · split
    · rename_i he
      rw [he] at hr
      exact hr
    · rename_i he
      rw [he] at hr
      repeat' split
      all_goals first | exact hr | exact (hw _ _).trans hr

theorem setRecord_keeps (ht : ∀ s x, g { s with store := x } = g s) (n : Nat) (r : PresetRecord)
    (s : State) : g (s.setRecord n r) = g s := ht _ _

theorem storePreset_keeps (hc : ∀ s x, g { s with cache := x } = g s)
    (ht : ∀ s x, g { s with store := x } = g s) (m : Master) (b p : Nat) (x : AxisSet) (gd : Nat)
    (l : List Octet) (ks : List KeyframeArg) (s : State) :
    g (storePreset m b p x gd l ks s).state = g s := by
  unfold storePreset
  split
  · exact edit_keeps hc (fun _ _ => ht _ _) _ _ _ _ _ _
  · rfl

theorem capture_keeps (hc : ∀ s x, g { s with cache := x } = g s)
    (ht : ∀ s x, g { s with store := x } = g s) (m : Master) (b p : Nat) (x : AxisSet) (d sh : Nat)
    (s : State) : g (capture m b p x d sh s).state = g s :=
  edit_keeps hc (fun _ _ => ht _ _) _ _ _ _ _ _

theorem appendKeyframe_keeps (hc : ∀ s x, g { s with cache := x } = g s)
    (ht : ∀ s x, g { s with store := x } = g s) (m : Master) (b p : Nat) (k : AppendArg) (s : State) :
    g (appendKeyframe m b p k s).state = g s := by
  refine edit_keeps hc (fun s n => ?_) _ _ _ _ _ _
  unfold appendTo
  split
  · rfl
  · exact ht _ _

theorem erasePreset_keeps (hc : ∀ s x, g { s with cache := x } = g s)
    (ht : ∀ s x, g { s with store := x } = g s) (m : Master) (b p : Nat) (s : State) :
    g (erasePreset m b p s).state = g s := edit_keeps hc (fun _ _ => ht _ _) _ _ _ _ _ _

theorem queryPreset_keeps (hc : ∀ s x, g { s with cache := x } = g s) (m : Master) (b p n : Nat)
    (s : State) : g (queryPreset m b p n s).state = g s := by
  have hr := resolve_keeps hc m b p s
  unfold queryPreset
  split
  · split
    · rename_i he
      rw [he] at hr
      exact hr
    · rename_i he
      rw [he] at hr
      split <;> exact hr
  · rfl

theorem unlessSaving_keeps (s : State) (r : Response) (h : g r.state = g s) :
    g (unlessSaving s r).state = g s := by
  unfold unlessSaving
  split
  · rfl
  · exact h

theorem setBankEntry_keeps (ht : ∀ s x, g { s with store := x } = g s) (d b k l : Nat) (f : List Nat)
    (s : State) : g (setBankEntry d b k l f s).state = g s := by
  unfold setBankEntry
  split
  · split
    · exact unlessSaving_keeps _ _ (ht _ _)
    · rfl
  · rfl

theorem setCueEntry_keeps (ht : ∀ s x, g { s with store := x } = g s) (l p v k r : Nat) (s : State) :
    g (setCueEntry l p v k r s).state = g s := by
  unfold setCueEntry
  split
  · split
    · exact unlessSaving_keeps _ _ (ht _ _)
    · rfl
  · rfl

theorem setView_keeps (hs : ∀ s x, g { s with settings := x } = g s) (m : Master) (v e d l k : Nat)
    (s : State) : g (setView m v e d l k s).state = g s := by
  unfold setView
  split
  · split
    · split
      · exact unlessSaving_keeps _ _ (hs _ _)
      · rfl
    · rfl
  · rfl

theorem queryDirectory_same (d : Nat) (s : State) : (queryDirectory d s).state = s := by
  unfold queryDirectory; split <;> rfl

theorem queryCueList_same (l : Nat) (s : State) : (queryCueList l s).state = s := by
  unfold queryCueList; split <;> rfl

/-! ## Moves (chapter 6) -/

theorem leaveAxes_keeps (hb : ∀ s x, g { s with blend := x } = g s) (l : List Move) (s : State) :
    g (l.foldl leaveAxes s) = g s := by
  induction l generalizing s with
  | nil => rfl
  | cons m l ih =>
    rw [List.foldl_cons, ih]
    unfold leaveAxes
    split
    · exact hb _ _
    · rfl

theorem cutMoves_keeps (o : OffQueue g) (hb : ∀ s x, g { s with blend := x } = g s) (p : Policy)
    (x : AxisSet) (s : State) : g (cutMoves p x s).state = g s :=
  (o.queue _ _).trans (leaveAxes_keeps hb _ _)

theorem recall_keeps (o : OffQueue g) (hb : ∀ s x, g { s with blend := x } = g s)
    (hn : ∀ s x, g { s with nextMoveId := x } = g s) (hc : ∀ s x, g { s with cache := x } = g s)
    (m : Master) (b p : Nat) (f : FilterArg) (v : Nat) (c : CueArg) (pol : Nat) (s : State) :
    g (recallMove m b p f v c pol s).state = g s := by
  have hr := resolve_keeps hc m b p s
  unfold recallMove
  split
  · rfl
  · split
    · rename_i he
      rw [he] at hr
      exact hr
    · rename_i he
      rw [he] at hr
      unfold recallResolved recallAccepted
      split
      · exact hr
      · have happ : ∀ (t : State) (q : List Move) (n : Nat), g { t with queue := q, nextMoveId := n } = g t :=
          fun t q n => (hn { t with queue := q } n).trans (o.queue t q)
        exact (happ _ _ _).trans ((cutMoves_keeps o hb _ _ _).trans hr)

theorem onMove_keeps {act : Move → State → Response} (ha : ∀ m s, g (act m s).state = g s) (r : Master)
    (id : Nat) (s : State) : g (onMove r id act s).state = g s := by
  unfold onMove
  split
  · rfl
  · split
    · exact ha _ _
    · rfl

theorem go_keeps (o : OffQueue g) (r : Master) (id : Nat) (s : State) : g (go r id s).state = g s := by
  refine onMove_keeps (fun m s => ?_) _ _ _
  unfold goOn
  split
  · rfl
  · split
    · exact o.queue _ _
    · exact o.queue _ _

theorem abort_keeps (o : OffQueue g) (hb : ∀ s x, g { s with blend := x } = g s) (r : Master) (id : Nat)
    (s : State) : g (abort r id s).state = g s := by
  refine onMove_keeps (fun m s => ?_) _ _ _
  show g (abortMove m s).state = g s
  have h : g (stopMove m s).state = g s :=
    (withdrawWith_keeps o _ _ _).trans ((o.queue _ _).trans (hb _ _))
  unfold abortMove
  split
  · exact o.queue _ _
  · exact h
  · exact h
  · rfl

theorem speedMove_keeps (o : OffQueue g) (r : Master) (id v : Nat) (s : State) :
    g (speedMove r id v s).state = g s := by
  refine onMove_keeps (fun m s => ?_) _ _ _
  split
  · exact o.queue _ _
  · rfl

theorem queryQueue_keeps (hf : ∀ s x, g { s with freeDraws := x } = g s) (s : State) :
    g (queryQueue s).state = g s := hf _ _

theorem cueMatch_keeps (o : OffQueue g) (v : Timecode) (s : State) : g (cueMatch v s) = g s :=
  o.queue _ _

theorem missCues_keeps (o : OffQueue g) (p : Timecode → Bool) (s : State) :
    g (missCues p s).state = g s := o.queue _ _

/-! ## Blend engine (chapter 7) -/

theorem modeRequest_keeps (o : OffQueue g) (hb : ∀ s x, g { s with blend := x } = g s) (m : Master)
    (x : AxisSet) (b : Bool) (v : State → Axis → ModeVerdict) (s : State) :
    g (modeRequest m x b v s).state = g s := by
  unfold modeRequest
  split
  · rfl
  · exact (withdraw_keeps o _ _).trans (hb _ _)

theorem setCoupling_keeps (hb : ∀ s x, g { s with blend := x } = g s)
    (hc : ∀ s x, g { s with couplings := x } = g s) (n e a b : Nat) (gain : Int) (s : State) :
    g (setCoupling n e a b gain s).state = g s := by
  unfold setCoupling
  split
  · rfl
  · split
    · split
      · refine (hc _ _).trans ?_
        unfold absorbTerm
        split
        · exact hb _ _
        · rfl
      · rfl
    · rfl

theorem queryBlend_keeps (hf : ∀ s x, g { s with freeDraws := x } = g s) (x : AxisSet) (s : State) :
    g (queryBlend x s).state = g s := by
  unfold queryBlend
  split
  · rfl
  · exact hf _ _

/-! ## Channels and zones (chapter 1) -/

theorem refit_keeps (hs : ∀ s x, g { s with settings := x } = g s)
    (ha : ∀ s x, g { s with armed := x } = g s) (x : AxisSet) (s : State) : g (refit x s) = g s :=
  (ha { s with settings := (refit x s).settings } (refit x s).armed).trans (hs _ _)

theorem setFitted_keeps (hs : ∀ s x, g { s with settings := x } = g s)
    (ha : ∀ s x, g { s with armed := x } = g s) (x : AxisSet) (s : State) :
    g (setFitted x s).state = g s := by
  unfold setFitted
  split
  · rfl
  · split
    · rfl
    · exact refit_keeps hs ha x s

theorem relimit_keeps (hs : ∀ s x, g { s with settings := x } = g s)
    (hb : ∀ s x, g { s with blend := x } = g s) (hd : ∀ s x, g { s with bus := x } = g s) (a : Axis)
    (l : Limits) (s : State) : g (relimit a l s) = g s :=
  (hd { s with settings := (relimit a l s).settings, blend := (relimit a l s).blend }
    (relimit a l s).bus).trans ((hb { s with settings := (relimit a l s).settings } _).trans (hs _ _))

theorem setLimits_keeps (hs : ∀ s x, g { s with settings := x } = g s)
    (hb : ∀ s x, g { s with blend := x } = g s) (hd : ∀ s x, g { s with bus := x } = g s) (n : Nat)
    (l : Limits) (s : State) : g (setLimits n l s).state = g s := by
  unfold setLimits
  split
  · rfl
  · split
    · rfl
    · split
      · split
        · rfl
        · exact relimit_keeps hs hb hd _ _ _
      · rfl

theorem rezone_keeps (hs : ∀ s x, g { s with settings := x } = g s)
    (ha : ∀ s x, g { s with armed := x } = g s) (n : Fin 8) (z : ZoneSetting) (s : State) :
    g (rezone n z s) = g s :=
  (ha { s with settings := (rezone n z s).settings } (rezone n z s).armed).trans (hs _ _)

theorem setZone_keeps (hs : ∀ s x, g { s with settings := x } = g s)
    (ha : ∀ s x, g { s with armed := x } = g s) (n e : Nat) (x : AxisSet) (bs : List (Int × Int))
    (s : State) : g (setZone n e x bs s).state = g s := by
  unfold setZone
  split
  · rfl
  · split
    · split
      · exact rezone_keeps hs ha _ _ _
      · rfl
    · rfl

theorem queryLimits_same (n : Nat) (s : State) : (queryLimits n s).state = s := by
  unfold queryLimits; split <;> rfl

theorem queryZones_keeps (hf : ∀ s x, g { s with freeDraws := x } = g s) (s : State) :
    g (queryZones s).state = g s := hf _ _

/-! ## Timecode (chapter 8) -/

theorem setRun_keeps (ht : ∀ s x, g { s with timecode := x } = g s) (r : RunState) (s : State) :
    g (setRun r s).state = g s := ht _ _

theorem writeCounter_keeps (o : OffQueue g) (ht : ∀ s x, g { s with timecode := x } = g s) (v : Timecode)
    (s : State) : g (writeCounter v s).state = g s := (o.queue _ _).trans (ht _ _)

theorem setTimecode_keeps (o : OffQueue g) (ht : ∀ s x, g { s with timecode := x } = g s) (v : Timecode)
    (s : State) : g (setTimecode v s).state = g s := by
  unfold setTimecode
  split
  · exact writeCounter_keeps o ht _ _
  · rfl

theorem offsetTimecode_keeps (o : OffQueue g) (ht : ∀ s x, g { s with timecode := x } = g s) (n : Nat)
    (v : Timecode) (s : State) : g (offsetTimecode n v s).state = g s := by
  unfold offsetTimecode
  split
  · rfl
  · split
    · exact writeCounter_keeps o ht _ _
    · rfl

theorem newRate_keeps (o : OffQueue g) (hs : ∀ s x, g { s with settings := x } = g s)
    (ht : ∀ s x, g { s with timecode := x } = g s) (r : Rate) (s : State) :
    g (newRate r s).state = g s :=
  (o.queue _ _).trans ((ht { s with settings := { s.settings with rate := r } } _).trans (hs _ _))

theorem setRate_keeps (o : OffQueue g) (hs : ∀ s x, g { s with settings := x } = g s)
    (ht : ∀ s x, g { s with timecode := x } = g s) (n : Nat) (s : State) :
    g (setRate n s).state = g s := by
  unfold setRate
  split
  · rfl
  · split
    · rfl
    · split
      · rfl
      · exact newRate_keeps o hs ht _ _

theorem judgePeriod_keeps (o : OffFaults g) (ht : ∀ s x, g { s with timecode := x } = g s) (b : Bool)
    (s : State) : g (judgePeriod b s).state = g s := by
  unfold judgePeriod
  split
  · exact ht _ _
  · exact ht _ _
  · exact ht _ _
  · show g (countGood s) = g s
    unfold countGood
    split <;> exact ht _ _
  · show g (lockedPulse s) = g s
    unfold lockedPulse
    have h1 : g (setLock .locked 4 s) = g s := ht _ _
    split
    · have h2 : ∀ s, g (advanceTimecode s) = g s := fun s => (o.queue _ _).trans (ht _ _)
      exact (h2 _).trans h1
    · exact h1
  · exact (raise_keeps o _ _ _).trans (ht _ _)

theorem genlockPulse_keeps (o : OffFaults g) (ht : ∀ s x, g { s with timecode := x } = g s) (s : State) :
    g (genlockPulse s).state = g s :=
  whenever_same (fun _ => (judgePeriod_keeps o ht _ _).trans (ht _ _)) _ _

theorem genlockLoss_keeps (o : OffFaults g) (ht : ∀ s x, g { s with timecode := x } = g s) (s : State) :
    g (genlockLoss s).state = g s := by
  unfold genlockLoss
  split
  · rfl
  · split
    · exact (raise_keeps o _ _ _).trans (ht _ _)
    · exact ht _ _
    · rfl
    · rfl

/-! ## Drive bus (chapter 9) -/

theorem setBusConfig_keeps (hs : ∀ s x, g { s with settings := x } = g s) (r p : Nat) (sl : List Nat)
    (s : State) : g (setBusConfig r p sl s).state = g s := by
  unfold setBusConfig
  split
  · split
    · split
      · rfl
      · exact hs _ _
    · rfl
  · rfl

theorem startBus_keeps (hd : ∀ s x, g { s with bus := x } = g s) (s : State) : g (startBus s) = g s :=
  hd s (startBus s).bus

theorem busStart_keeps (hd : ∀ s x, g { s with bus := x } = g s) (s : State) :
    g (busStart s).state = g s := by
  unfold busStart
  split
  · rfl
  · split
    · exact startBus_keeps hd s
    · rfl

theorem busStop_keeps (hd : ∀ s x, g { s with bus := x } = g s) (s : State) :
    g (busStop s).state = g s := by
  unfold busStop
  split
  · rfl
  · split
    · rfl
    · split
      · exact hd _ _
      · rfl

theorem frameStart_keeps (o : OffFrame g) (w : SlotWords) (s : State) :
    g (frameStart w s).state = g s :=
  whenever_same (f := fun s => frame w { s with bus := { s.bus with syncPulses := s.bus.syncPulses + 1 } })
    (fun s => (frame_keeps o w _).trans (o.bus s _)) _ _

theorem busSyncEdge_keeps (o : OffFrame g) (w : SlotWords) (s : State) :
    g (busSyncEdge w s).state = g s :=
  whenever_same (f := fun s => frame w (takeEdge s))
    (fun s => (frame_keeps o w _).trans (o.bus s _)) _ _

theorem busSyncLost_keeps (o : OffFaults g) (s : State) : g (busSyncLost s).state = g s :=
  whenever_same
    (f := fun s => raise .busSyncLost RaiseInfo.bare { s with bus := { s.bus with sync := .lost } })
    (fun s => (raise_keeps o _ _ _).trans (o.bus s _)) _ _

theorem enable_keeps (hd : ∀ s x, g { s with bus := x } = g s) (m : Master) (x : AxisSet) (s : State) :
    g (enable m x s).state = g s := by
  unfold enable
  split
  · rfl
  · exact hd _ _

theorem disable_keeps (hd : ∀ s x, g { s with bus := x } = g s) (m : Master) (x : AxisSet) (s : State) :
    g (disable m x s).state = g s := by
  unfold disable
  split
  · rfl
  · exact hd _ _

/-! ## Fault control (chapter 10) -/

theorem escalationExpiry_keeps (o : OffFaults g) (s : State) : g (escalationExpiry s).state = g s := by
  unfold escalationExpiry
  split
  · rfl
  · split
    · exact (safeStopEntry_keeps o _ _).trans (o.faults _ _)
    · rfl

theorem stopTimerExpiry_keeps (o : OffFaults g) (s : State) : g (stopTimerExpiry s).state = g s := by
  unfold stopTimerExpiry
  split
  · rfl
  · split
    · exact (enterReleased_keeps o _).trans (raise_keeps o _ _ _)
    · rfl

theorem estopActivates_keeps (o : OffFaults g) (s : State) : g (estopActivates s).state = g s := by
  unfold estopActivates
  split
  · rfl
  · exact (whenever_same (raise_keeps o _ _) _ _).trans ((o.bus _ _).trans (o.faults _ _))

theorem judgeEscalation_keeps (hf : ∀ s x, g { s with faults := x } = g s) (s : State) :
    g (judgeEscalation s) = g s := by
  unfold judgeEscalation
  split
  · rfl
  · exact hf _ _

theorem setFaultActions_keeps (hs : ∀ s x, g { s with settings := x } = g s)
    (hf : ∀ s x, g { s with faults := x } = g s) (a b : Nat) (s : State) :
    g (setFaultActions a b s).state = g s := by
  unfold setFaultActions
  split
  · split
    · rfl
    · exact (judgeEscalation_keeps hf _).trans (hs _ _)
  · rfl

theorem setFaultTimers_keeps (hs : ∀ s x, g { s with settings := x } = g s) (a b : Nat) (s : State) :
    g (setFaultTimers a b s).state = g s := by
  unfold setFaultTimers
  split
  · exact hs _ _
  · rfl

theorem clearSource_keeps (hf : ∀ s x, g { s with faults := x } = g s) (src : FaultSource) (s : State) :
    g (clearSource src s) = g s := by
  unfold clearSource
  split
  · exact hf _ _
  · rfl

theorem clearSources_keeps (hf : ∀ s x, g { s with faults := x } = g s) (l : List FaultSource)
    (s : State) : g (l.foldl (fun s src => clearSource src s) s) = g s := by
  induction l generalizing s with
  | nil => rfl
  | cons src l ih => exact (ih _).trans (clearSource_keeps hf src s)

theorem judgeFirstFault_keeps (hf : ∀ s x, g { s with faults := x } = g s) (s : State) :
    g (judgeFirstFault s) = g s := by
  unfold judgeFirstFault
  split
  · rfl
  · exact hf _ _

theorem faultClear_keeps (hf : ∀ s x, g { s with faults := x } = g s) (b : BitVec 16) (s : State) :
    g (faultClear b s).state = g s := by
  unfold faultClear
  split
  · rfl
  · exact (judgeFirstFault_keeps hf _).trans
      ((judgeEscalation_keeps hf _).trans (clearSources_keeps hf _ _))

theorem releaseClear_keeps (hd : ∀ s x, g { s with bus := x } = g s)
    (hf : ∀ s x, g { s with faults := x } = g s) (s : State) : g (releaseClear s).state = g s := by
  unfold releaseClear
  split
  · rfl
  · split
    · rfl
    · split
      · rfl
      · exact (hf { s with bus := { s.bus with latch := false } } _).trans (hd _ _)

/-! ## Links (chapter 11) -/

theorem receiveRequest_keeps (hp : ∀ s x, g { s with ports := x } = g s) (m : Master) (i : Instr)
    (s : State) : g (receiveRequest m i s) = g s := by
  unfold receiveRequest
  simp only
  split <;> exact hp _ _

theorem frameReceived_keeps (o : OffFaults g) (hj : ∀ s x, g { s with joysticks := x } = g s)
    (hp : ∀ s x, g { s with ports := x } = g s) (m : Master) (l : List Octet) (s : State) :
    g (frameReceived m l s).state = g s := by
  unfold frameReceived
  split
  · rfl
  · rfl
  · unfold judgeFrame
    split
    · exact (whenever_same (raise_keeps o _ _) _ _).trans (hp _ _)
    · exact (hj _ _).trans (hp _ _)
    · exact receiveRequest_keeps hp _ _ _

theorem setReport_keeps (hp : ∀ s x, g { s with ports := x } = g s) (m : Master) (n : Nat) (s : State) :
    g (setReport m n s).state = g s := by
  unfold setReport
  split
  · rfl
  · exact hp _ _

/-! ## Start-up (chapter 12) -/

theorem resetRelease_keeps (hu : ∀ s x, g { s with startup := x } = g s) (s : State) :
    g (resetRelease s) = g s := by
  unfold resetRelease
  simp only
  split
  · exact (hu _ _).trans (hu _ _)
  · exact hu _ _

theorem holdEnd_keeps (hu : ∀ s x, g { s with startup := x } = g s) (p : OperatingMode) (s : State) :
    g (holdEnd p s) = g s := by
  unfold holdEnd
  split
  · exact hu _ _
  · rfl

theorem saveStore_keeps (hv : ∀ s x, g { s with save := x } = g s) (m : Master) (s : State) :
    g (saveStore m s).state = g s := by
  unfold saveStore
  split
  · rfl
  · exact hv _ _

theorem markerWritten_keeps (hm : ∀ s x, g { s with memory := x } = g s) (s : State) :
    g (markerWritten s) = g s := by
  unfold markerWritten
  split
  · exact hm _ _
  · rfl

theorem failedSave_keeps (hm : ∀ s x, g { s with memory := x } = g s)
    (hf : ∀ s x, g { s with freeDraws := x } = g s) (n : Nat) (v : Settings) (s : State) :
    g (failedSave n v s) = g s := by
  unfold failedSave
  split
  · exact hm _ _
  · exact hm _ _
  · exact (hf _ _).trans (hm _ _)
  · rfl

theorem saveCompletion_keeps (hm : ∀ s x, g { s with memory := x } = g s)
    (hf : ∀ s x, g { s with freeDraws := x } = g s) (hv : ∀ s x, g { s with save := x } = g s)
    (e : SaveEnding) (s : State) : g (saveCompletion e s).state = g s := by
  unfold saveCompletion
  split
  · rfl
  · exact (hv _ _).trans (hm _ _)
  · exact (hv _ _).trans (failedSave_keeps hm hf _ _ _)

/-- READY leaves what its waiting actions leave, with the start-up phase, the cache and the ports. -/
theorem reachReady_keeps (o : OffFaults g) (hu : ∀ s x, g { s with startup := x } = g s)
    (hc : ∀ s x, g { s with cache := x } = g s) (hp : ∀ s x, g { s with ports := x } = g s)
    {w : State → Emit} (hw : ∀ s, g (w s).state = g s) (s : State) :
    g (reachReady w s).state = g s := by
  unfold reachReady
  simp only [andThen_state]
  exact (whenever_same (raise_keeps o _ _) _ _).trans
    ((hw _).trans ((hp _ _).trans ((hu _ _).trans (hc _ _))))

theorem takeImage_keeps (hs : ∀ s x, g { s with settings := x } = g s)
    (ht : ∀ s x, g { s with store := x } = g s) (hj : ∀ s x, g { s with joysticks := x } = g s)
    (i : ConfigImage) (s : State) : g (takeImage i s) = g s :=
  (hj { s with settings := i.settings, store := (takeImage i s).store } (takeImage i s).joysticks).trans
    ((ht { s with settings := i.settings } (takeImage i s).store).trans (hs _ _))

theorem loadImage_keeps (o : OffFaults g) (hu : ∀ s x, g { s with startup := x } = g s)
    (hc : ∀ s x, g { s with cache := x } = g s) (hp : ∀ s x, g { s with ports := x } = g s)
    (hs : ∀ s x, g { s with settings := x } = g s) (ht : ∀ s x, g { s with store := x } = g s)
    (hj : ∀ s x, g { s with joysticks := x } = g s) (i : ConfigImage) (s : State) : g (loadImage i s).state = g s := by
  unfold loadImage
  split
  · exact (reachReady_keeps o hu hc hp (fun _ => rfl) _).trans
      ((hu _ _).trans (takeImage_keeps hs ht hj _ _))
  · unfold loadInvalid
    exact (reachReady_keeps o hu hc hp (raiseActions_keeps o _ _ _) _).trans
      ((raiseRecord_keeps o _ _ _).trans ((hu _ _).trans (hs _ _)))

theorem configurationLoad_keeps (o : OffFaults g) (hu : ∀ s x, g { s with startup := x } = g s)
    (hc : ∀ s x, g { s with cache := x } = g s) (hp : ∀ s x, g { s with ports := x } = g s)
    (hs : ∀ s x, g { s with settings := x } = g s) (ht : ∀ s x, g { s with store := x } = g s)
    (hj : ∀ s x, g { s with joysticks := x } = g s) (hm : ∀ s x, g { s with memory := x } = g s)
    (a : MemoryAnswer) (s : State) :
    g (configurationLoad a s).state = g s := by
  unfold configurationLoad
  split
  · split
    · exact (reachReady_keeps o hu hc hp (fun _ => rfl) _).trans ((hu _ _).trans (hs _ _))
    · exact loadImage_keeps o hu hc hp hs ht hj _ _
    · exact (loadImage_keeps o hu hc hp hs ht hj _ _).trans (hm _ _)
  · rfl

end Bodies

end Sys2Proof.Machine
end

