-- ==== Sys2Proof/Laws/Frames.lean ====
section
/-! SUPPORT. A law of the state that the parts of a frame keep is kept by the frame. -/

namespace Sys2Proof.Machine

/-- A law of the state that the parts of a frame computation keep. -/
structure ComputationLaw (P : State → Prop) : Prop where
  raise : ∀ src info s, P s → P (raise src info s).state
  released : ∀ s, P s → P (enterReleased s).state
  queue : ∀ s q, (s.queue = [] → q = []) → P s → P { s with queue := q }
  plain : ∀ s b d c a, P s → P { s with blend := b, demand := d, clamped := c, armed := a }
  report : ∀ m s, P s → P (countReport m s).state

/-- A law of the state that the parts of a frame keep. -/
structure FrameLaw (P : State → Prop) : Prop extends ComputationLaw P where
  drives : ∀ s x, (∀ a, (PerAxis.get x a).enable = (s.bus.drives.get a).enable) → P s →
    P { s with bus := { s.bus with drives := x } }
  counts : ∀ s (q : BitVec 8) (n : BitVec 32) (v : Vector (Option SentWord) 16), P s →
    P { s with bus := { s.bus with sequence := q, frameNumber := n, slotWords := v } }

section Frames
variable {P : State → Prop}

/-- Removal keeps the law. -/
theorem ComputationLaw.remove (fl : ComputationLaw P) (p f) {s : State} (h : P s) : P (removeMoves p f s).state :=
  fl.queue _ _ (fun e => by rw [e]; rfl) h

theorem ComputationLaw.withdraw (fl : ComputationLaw P) (x f) {s : State} (h : P s) : P (withdrawWith x f s).state :=
  fl.queue s _ (fun e => by simp [e]) h

theorem ComputationLaw.writeMove (fl : ComputationLaw P) (m) {s : State} (h : P s) : P (writeMove m s) :=
  fl.queue _ _ (fun e => by rw [e]; rfl) h

theorem ComputationLaw.advance (fl : ComputationLaw P) (m g) {s : State} (h : P s) : P (advance m g s) :=
  fl.plain _ _ _ _ _ (fl.writeMove _ h)

theorem ComputationLaw.takeMove (fl : ComputationLaw P) (k m) (s : State) (h : P s) : P (takeMove k m s).state := by
  unfold Machine.takeMove
  split
  · split
    · exact h
    · split
      · exact fl.advance _ _ h
      · unfold boundary
        split
        · exact fl.remove _ _ (fl.plain _ _ _ _ _ h)
        · split
          · exact fl.advance _ _ h
          · exact fl.writeMove _ h
  · split
    · exact h
    · split
      · exact fl.advance _ _ h
      · exact h
  · exact h
  · exact h

theorem ComputationLaw.startMove (fl : ComputationLaw P) (k m) (s : State) (h : P s) : P (startMove k m s).state := by
  unfold Machine.startMove
  split
  · exact h
  · simp only
    split
    · exact fl.advance _ _ (fl.plain _ _ _ _ _ h)
    · exact fl.plain _ _ _ _ _ (fl.writeMove _ (fl.plain _ _ _ _ _ h))

theorem ComputationLaw.startPass (fl : ComputationLaw P) (k l) (x : AxisSet) {s : State} (h : P s) : P (startPass k x l s).state := by
  induction l generalizing x s with
  | nil => exact h
  | cons m l ih => exact ih _ (whenever_keeps (fl.startMove k m) _ h)

theorem ComputationLaw.presetStep (fl : ComputationLaw P) (k) {s : State} (h : P s) : P (presetStep k s).state :=
  fl.startPass _ _ _ (emitEach_keeps (fl.takeMove k) _ h)

theorem ComputationLaw.stageTwo (fl : ComputationLaw P) (x k) {s : State} (h : P s) : P (stageTwo x k s).state :=
  fl.withdraw _ _ (fl.plain _ _ _ _ _ h)

theorem ComputationLaw.limitStage (fl : ComputationLaw P) (x k) {s : State} (h : P s) : P (limitStage x k s).state := by
  unfold Machine.limitStage
  simp only [andThen_state, quiet_state]
  have h1 : ∀ (t : AxisSet) a s, P s → P (judgeClamp (AxisSet.has t a) a s).state :=
    fun t a s hs => whenever_keeps (fl.raise _ _) _ (fl.plain _ _ _ _ _ hs)
  have h2 : ∀ n s, P s → P (raiseZoneEntry n s).state := fun n s hs => fl.raise _ _ _ hs
  have : ∀ d s, P s → P (writeDemands x k d s) := fun d s hs =>
    fl.plain s _ _ _ _ hs
  exact this _ _ (fl.plain _ _ _ _ _ (emitEach_keeps h2 _ (emitEach_keeps (h1 _) _ h)))

/-- A frame computation keeps the law. -/
theorem ComputationLaw.computation (fl : ComputationLaw P) {s : State} (h : P s) : P (frameComputation s).state := by
  unfold frameComputation computeDemands safeStopRest armZones
  simp only [andThen_state, quiet_state]
  have hr : ∀ x k s, P s → P (releasedTracking x k s) := fun x k s hs =>
    fl.plain s _ _ _ _ hs
  refine emitEach_keeps fl.report _ (whenever_keeps (fun s hs => fl.released _ hs) _ (fl.plain _ _ _ _ _ ?_))
  exact fl.remove _ _ (hr _ _ _ (fl.limitStage _ _ (fl.stageTwo _ _ (fl.presetStep _ h))))

/-- A frame keeps the law. -/
theorem FrameLaw.frame (fl : FrameLaw P) (words : SlotWords) {s : State} (h : P s) : P (frame words s).state := by
  unfold Machine.frame
  generalize readSlots words s = w
  unfold frameOn feedbackChecks
  simp only [andThen_state]
  refine fl.computation (fl.counts _ _ _ _ ?_)
  have up : ∀ (f : Axis → Drive → Drive) s, (∀ a d, (f a d).enable = d.enable) → P s → P (updateDrives f s) := by
    intro f s hf hs
    refine fl.drives _ _ (fun a => ?_) hs
    simp only [PerAxis.get_ofFn]; split
    · exact hf _ _
    · rfl
  have sd : ∀ a d s, d.enable = (s.bus.drives.get a).enable → P s → P (setDrive a d s) := by
    intro a d s hd hs
    refine fl.drives _ _ (fun b => ?_) hs
    rw [PerAxis.get_set]; split
    · rename_i hb; subst hb; exact hd
    · rfl
  have h1 : ∀ a s, P s → P (echoCheck w a s).state := by
    intro a s hs; unfold echoCheck
    refine whenever_keeps (fl.raise _ _) _ (sd _ _ _ ?_ hs)
    unfold echoJudged; split <;> rfl
  have h2 : ∀ b a s, P s → P (driveStateCheck b a s).state := fun b a s hs => whenever_keeps (fl.raise _ _) _ hs
  have h3 : ∀ a s, P s → P (followingCheck w a s).state := by
    intro a s hs; unfold followingCheck
    exact whenever_keeps (fl.raise _ _) _ (sd _ _ _ rfl hs)
  refine emitEach_keeps h3 _ (emitEach_keeps (h2 _) _ (emitEach_keeps h1 _ ?_))
  refine up _ _ (fun a d => by unfold takeWord; split <;> rfl) ?_
  exact up _ _ (fun a d => rfl) (fl.counts _ _ _ _ h)

/-- The bus words that a frame source writes before its frame. -/
structure SyncLaw (P : State → Prop) : Prop where
  pulses : ∀ s n, P s → P { s with bus := { s.bus with syncPulses := n } }
  edge : ∀ s c b n y, P s →
    P { s with bus := { s.bus with capturedSync := c, edgeSeen := b, syncCounter := n, sync := y } }

theorem FrameLaw.frameStart (fl : FrameLaw P) (sl : SyncLaw P) (w : SlotWords)
    {s : State} (h : P s) : P (frameStart w s).state := by
  unfold Machine.frameStart
  exact whenever_keeps (P := P) (fun s h => fl.frame w (sl.pulses _ _ h)) _ h

theorem FrameLaw.busSyncEdge (fl : FrameLaw P) (sl : SyncLaw P) (w : SlotWords)
    {s : State} (h : P s) : P (busSyncEdge w s).state := by
  unfold Machine.busSyncEdge
  exact whenever_keeps (P := P) (fun s h => fl.frame w (sl.edge _ _ _ _ _ h)) _ h

theorem FrameLaw.busSyncLost (fl : FrameLaw P) (sl : SyncLaw P) {s : State} (h : P s) :
    P (busSyncLost s).state := by
  unfold Machine.busSyncLost
  exact whenever_keeps (P := P)
    (fun s h => fl.raise _ _ _ (sl.edge s s.bus.capturedSync s.bus.edgeSeen s.bus.syncCounter .lost h)) _ h

end Frames

end Sys2Proof.Machine
end

