-- ==== Sys2Proof/Laws/Raises.lean ====
section
/-! SUPPORT. What a raise leaves of the fault unit: steps 3 to 8 write the safe stop and the timers alone, so
the flags, the recorded axis sets and the first-fault record are those of steps 1 and 2. -/

namespace Sys2Proof.Machine

/-- A reading that does not look at what the actions of a raise write. -/
structure OffActs {α : Type} (g : State → α) : Prop extends OffQueue g where
  blend : ∀ s x, g { s with blend := x } = g s
  bus : ∀ s x, g { s with bus := x } = g s
  stop : ∀ s e v c t, g { s with faults := { s.faults with
    escalation := e, safeStop := v, cause := c, stopTimer := t } } = g s

section Acts
variable {α : Type} {g : State → α}

theorem setSafeStop_acts (o : OffActs g) (v : SafeStop) (t : Option Nat) (s : State) :
    g (setSafeStop v t s) = g s := o.stop s s.faults.escalation v s.faults.cause t

theorem setStopCause_acts (o : OffActs g) (c : StopCause) (s : State) : g (setStopCause c s) = g s :=
  o.stop s s.faults.escalation s.faults.safeStop c s.faults.stopTimer

theorem enterReleased_acts (o : OffActs g) (s : State) : g (enterReleased s).state = g s := by
  unfold enterReleased
  rw [removeMoves_keeps o.toOffQueue, setSafeStop_acts o]
  exact o.bus _ _

theorem haltEverything_acts (o : OffActs g) (s : State) : g (haltEverything s).state = g s :=
  (o.blend _ _).trans ((o.queue _ _).trans (removeMoves_keeps o.toOffQueue _ _ _))

theorem holdAction_acts (o : OffActs g) (x : AxisSet) (s : State) : g (holdAction x s).state = g s :=
  (withdraw_keeps o.toOffQueue _ _).trans (o.blend _ _)

theorem beginStop_acts (o : OffActs g) (s : State) : g (beginStop s).state = g s := by
  unfold beginStop
  split
  · exact setSafeStop_acts o _ _ _
  · exact enterReleased_acts o s

theorem safeStopEntry_acts (o : OffActs g) (c : StopCause) (s : State) :
    g (safeStopEntry c s).state = g s := by
  unfold safeStopEntry
  split
  · rw [andThen_state, beginStop_acts o, setStopCause_acts o, haltEverything_acts o]
  · rfl

theorem releaseAction_acts (o : OffActs g) (s : State) : g (releaseAction s).state = g s := by
  unfold releaseAction
  split
  · rw [andThen_state, enterReleased_acts o, setStopCause_acts o, haltEverything_acts o]
  · rw [enterReleased_acts o, setStopCause_acts o]
  · rfl

theorem startEscalation_acts (o : OffActs g) (s : State) : g (startEscalation s) = g s := by
  unfold startEscalation
  split
  · rfl
  · exact o.stop s _ s.faults.safeStop s.faults.cause s.faults.stopTimer

/-- The actions of a raise leave such a reading. -/
theorem raiseActions_acts (o : OffActs g) (src : FaultSource) (info : RaiseInfo) (first : Bool)
    (s : State) : g (raiseActions src info first s).state = g s := by
  have h : g (((whenever (actionSet s src).hold (holdAction (holdScope src info s)) s).andThen
      (whenever (actionSet s src).safeStop (safeStopEntry (.source src)))).andThen
      (whenever (src == .estop) releaseAction)).state = g s :=
    (whenever_same (releaseAction_acts o) _ _).trans
      ((whenever_same (safeStopEntry_acts o _) _ _).trans (whenever_same (holdAction_acts o _) _ _))
  unfold raiseActions
  simp only
  split
  · exact (startEscalation_acts o _).trans h
  · exact h

/-- A raise leaves such a reading as its record leaves it. -/
theorem raise_acts (o : OffActs g) (src : FaultSource) (info : RaiseInfo) (s : State) :
    g (raise src info s).state = g (raiseRecord src info s) := raiseActions_acts o _ _ _ _

end Acts

/-! ## Steps 1 and 2 -/

theorem sources_off : OffActs fun s => s.faults.sources :=
  ⟨⟨fun _ _ => rfl⟩, fun _ _ => rfl, fun _ _ => rfl, fun _ _ _ _ _ => rfl⟩

theorem first_off : OffActs fun s => s.faults.first :=
  ⟨⟨fun _ _ => rfl⟩, fun _ _ => rfl, fun _ _ => rfl, fun _ _ _ _ _ => rfl⟩

theorem FaultSource.mem_all (src : FaultSource) : src ∈ FaultSource.all := by cases src <;> decide

theorem anyFlag_eq_true {s : State} : anyFlag s = true ↔ ∃ src, flagSet s src = true := by
  unfold anyFlag
  rw [List.any_eq_true]
  exact ⟨fun ⟨x, _, h⟩ => ⟨x, h⟩, fun ⟨x, h⟩ => ⟨x, FaultSource.mem_all x, h⟩⟩

theorem FaultSource.id_inj {a b : FaultSource} (h : a.id = b.id) : a = b := by
  cases a <;> cases b <;> first | rfl | (exact absurd h (by decide))

@[simp] theorem sourceState_setSource_same (s : State) (src : FaultSource) (v : SourceState) :
    sourceState (s.setSource src v) src = v := by
  simp [sourceState, State.setSource]

theorem sourceState_setSource_other (s : State) {src other : FaultSource} (v : SourceState)
    (h : other ≠ src) : sourceState (s.setSource src v) other = sourceState s other := by
  have hn : (src.id : Nat) ≠ other.id := fun e => h (FaultSource.id_inj (Fin.ext e.symm))
  simp [sourceState, State.setSource, Vector.getElem_set_ne _ _ hn]

/-- Steps 1 and 2 of a raise write the fault unit's record of the source and the first-fault record. -/
theorem raiseRecord_same (src : FaultSource) (info : RaiseInfo) (s : State) :
    sourceState (raiseRecord src info s) src =
      { flag := true, axes := (sourceState s src).axes ||| info.axes.getD 0#8 } := by
  unfold raiseRecord
  exact sourceState_setSource_same _ _ _

theorem raiseRecord_other (info : RaiseInfo) (s : State) {src other : FaultSource} (h : other ≠ src) :
    sourceState (raiseRecord src info s) other = sourceState s other := by
  unfold raiseRecord
  rw [sourceState_setSource_other _ _ h]
  split <;> rfl

theorem raiseRecord_first (src : FaultSource) (info : RaiseInfo) (s : State) :
    (raiseRecord src info s).faults.first =
      if anyFlag s then s.faults.first
      else some { source := src, info := info, timecode := s.timecode.counter,
                  frameNumber := s.bus.frameNumber, time := s.timebase.ms } := by
  unfold raiseRecord State.setSource
  simp only
  split <;> rfl

/-- A raise leaves a flag set. -/
theorem raiseRecord_anyFlag (src : FaultSource) (info : RaiseInfo) (s : State) :
    anyFlag (raiseRecord src info s) = true :=
  anyFlag_eq_true.2 ⟨src, by unfold flagSet; rw [raiseRecord_same]⟩

end Sys2Proof.Machine
end

