-- ==== Sys2Proof/Laws/Checks.lean ====
section
/-! SUPPORT. The small laws of the checks that requests begin with, of the clamps, of a withdrawal of no axis, and
of a pass over a list that touches one of its items. -/

namespace Sys2Proof.Machine

theorem axisSetCheck_badAxis {s : State} {x : AxisSet} (h : x &&& ~~~s.settings.fitted ≠ 0#8) :
    axisSetCheck s x = some .badAxis := by
  unfold axisSetCheck; rw [if_pos h]

theorem axisSetCheck_empty (s : State) : axisSetCheck s 0#8 = some .badArgument := by
  unfold axisSetCheck; simp

theorem axisSetCheck_pass {s : State} {x : AxisSet} (h : x &&& ~~~s.settings.fitted = 0#8) (hx : x ≠ 0#8) :
    axisSetCheck s x = none := by
  unfold axisSetCheck; simp [h, hx]

theorem axisOfNumber_none {n : Nat} (h : 7 < n) : Axis.ofNumber? n = none := by
  unfold Axis.ofNumber?; split <;> first | rfl | omega

theorem masterOf_none {n : Nat} (h : n = 0 ∨ 3 < n) : masterOf n = none := by
  unfold masterOf; split <;> first | rfl | omega

theorem clampTo_eq_max_min {lo hi : Int} (h : lo ≤ hi) (v : Int) : clampTo lo hi v = max lo (min hi v) := by
  unfold clampTo; split <;> (try split) <;> omega

theorem within_iff {lo hi v : Int} : within lo hi v = true ↔ lo ≤ v ∧ v ≤ hi := by simp [within]

theorem numberWithin_iff {lo hi v : Nat} : numberWithin lo hi v = true ↔ lo ≤ v ∧ v ≤ hi := by
  simp [numberWithin]

theorem namesUnfitted_number {s : State} {a : Axis} :
    namesUnfitted s a.number = true ↔ ¬ AxisSet.has s.settings.fitted a = true := by
  simp [namesUnfitted, Axis.ofNumber_number]

/-- A withdrawal of no axis leaves a queue whose moves all hold an axis. -/
theorem withdraw_zero {s : State} (h : ∀ m ∈ s.queue, m.axes ≠ 0#8) : withdraw 0#8 s = quiet s := by
  have hm : s.queue.map (Move.withdraw 0#8) = s.queue := by
    rw [List.map_congr_left (g := id)]
    · simp
    intro m _
    have hp : ∀ x : PerAxis (Option Path), (PerAxis.ofFn fun a => x.get a) = x :=
      fun x => PerAxis.ext_get (by simp)
    have ha : m.axes &&& 255#8 = m.axes :=
      AxisSet.eq_of_has fun a => by rw [AxisSet.has_and, show (255#8 : AxisSet) = AxisSet.full from rfl]; simp
    simp [Move.withdraw, hp, ha]
  have hf : s.queue.filter (fun m => !(Move.emptied m)) = s.queue := by
    rw [List.filter_eq_self]; intro m hx; simpa [Move.emptied] using h m hx
  have hg : s.queue.filter Move.emptied = [] := by
    rw [List.filter_eq_nil_iff]; intro m hx; simpa [Move.emptied] using h m hx
  simp [withdraw, withdrawWith, removeMoves, hm, hf, hg, quiet]

/-- A pass over a list without repeats takes an item's part once: what the other parts keep before it and after
it, and what its own part makes of the first, holds after the pass. -/
theorem emitEach_once {β : Type} {P Q : State → Prop} {f : β → State → Emit} {l : List β} {a : β}
    (hn : l.Nodup) (ha : a ∈ l) (h1 : ∀ b s, b ≠ a → P s → P (f b s).state)
    (h2 : ∀ s, P s → Q (f a s).state) (h3 : ∀ b s, b ≠ a → Q s → Q (f b s).state) :
    ∀ s, P s → Q (emitEach l f s).state := by
  induction l with
  | nil => cases ha
  | cons b l ih =>
    intro s hs
    rw [List.nodup_cons] at hn
    have rest : ∀ l' : List β, a ∉ l' → ∀ s, Q s → Q (emitEach l' f s).state := by
      intro l'
      induction l' with
      | nil => intro _ s h; exact h
      | cons c l' ih' =>
        intro hc s h
        simp only [List.mem_cons, not_or] at hc
        exact ih' hc.2 _ (h3 _ _ (fun e => hc.1 e.symm) h)
    by_cases hb : b = a
    · subst hb; exact rest _ hn.1 _ (h2 _ hs)
    · have : a ∈ l := by
        rcases List.mem_cons.1 ha with h | h
        · exact absurd h.symm hb
        · exact h
      exact ih hn.2 this _ (h1 _ _ hb hs)

theorem fittedAxes_nodup (s : State) : (fittedAxes s).Nodup := by
  unfold fittedAxes AxisSet.members
  exact List.Pairwise.filter _ (by decide)

end Sys2Proof.Machine
end

