-- ==== Sys2Proof/Laws/PerInstr.lean ====
section
/-! SUPPORT. The per-command family Kind: what stands in a receive buffer of a command is the same command without
its time, with the same header but for it, and well formed exactly when the command is. -/

namespace Sys2Proof.Laws.Kind

/-- The buffered form of a command keeps its header and its operands. -/
def Statement (i : Instr) : Prop :=
  Machine.requestHeader i.unstamped = (Machine.requestHeader i).map Header.unstamped ∧
    i.unstamped.wf = i.wf ∧ i.unstamped.unstamped = i.unstamped

theorem claim : ∀ x0 x1 x2, Statement (Instr.claim x0 x1 x2) :=
  fun _ _ _ => ⟨rfl, rfl, rfl⟩
theorem release : ∀ x0 x1, Statement (Instr.release x0 x1) :=
  fun _ _ => ⟨rfl, rfl, rfl⟩
theorem yield : ∀ x0 x1 x2, Statement (Instr.yield x0 x1 x2) :=
  fun _ _ _ => ⟨rfl, rfl, rfl⟩
theorem seize : ∀ x0 x1, Statement (Instr.seize x0 x1) :=
  fun _ _ => ⟨rfl, rfl, rfl⟩
theorem withdrawWait : ∀ x0 x1, Statement (Instr.withdrawWait x0 x1) :=
  fun _ _ => ⟨rfl, rfl, rfl⟩
theorem queryAuthority : ∀ x0 x1, Statement (Instr.queryAuthority x0 x1) :=
  fun _ _ => ⟨rfl, rfl, rfl⟩
theorem setMode : ∀ x0 x1 x2, Statement (Instr.setMode x0 x1 x2) :=
  fun _ _ _ => ⟨rfl, rfl, rfl⟩
theorem takeLive : ∀ x0 x1 x2, Statement (Instr.takeLive x0 x1 x2) :=
  fun _ _ _ => ⟨rfl, rfl, rfl⟩
theorem enable : ∀ x0 x1, Statement (Instr.enable x0 x1) :=
  fun _ _ => ⟨rfl, rfl, rfl⟩
theorem disable : ∀ x0 x1, Statement (Instr.disable x0 x1) :=
  fun _ _ => ⟨rfl, rfl, rfl⟩
theorem storePreset : ∀ x0 x1 x2 x3 x4 x5 x6, Statement (Instr.storePreset x0 x1 x2 x3 x4 x5 x6) :=
  fun _ _ _ _ _ _ _ => ⟨rfl, rfl, rfl⟩
theorem capture : ∀ x0 x1 x2 x3 x4 x5, Statement (Instr.capture x0 x1 x2 x3 x4 x5) :=
  fun _ _ _ _ _ _ => ⟨rfl, rfl, rfl⟩
theorem appendKeyframe : ∀ x0 x1 x2 x3, Statement (Instr.appendKeyframe x0 x1 x2 x3) :=
  fun _ _ _ _ => ⟨rfl, rfl, rfl⟩
theorem erasePreset : ∀ x0 x1 x2, Statement (Instr.erasePreset x0 x1 x2) :=
  fun _ _ _ => ⟨rfl, rfl, rfl⟩
theorem queryPreset : ∀ x0 x1 x2 x3, Statement (Instr.queryPreset x0 x1 x2 x3) :=
  fun _ _ _ _ => ⟨rfl, rfl, rfl⟩
theorem recallCue : ∀ x0 x1 x2 x3 x4 x5 x6, Statement (Instr.recallCue x0 x1 x2 x3 x4 x5 x6) :=
  fun _ _ _ _ _ _ _ => ⟨rfl, rfl, rfl⟩
theorem go : ∀ x0 x1, Statement (Instr.go x0 x1) :=
  fun _ _ => ⟨rfl, rfl, rfl⟩
theorem abort : ∀ x0 x1, Statement (Instr.abort x0 x1) :=
  fun _ _ => ⟨rfl, rfl, rfl⟩
theorem speed : ∀ x0 x1 x2, Statement (Instr.speed x0 x1 x2) :=
  fun _ _ _ => ⟨rfl, rfl, rfl⟩
theorem queryQueue : ∀ x0, Statement (Instr.queryQueue x0) :=
  fun _ => ⟨rfl, rfl, rfl⟩
theorem queryLimits : ∀ x0 x1, Statement (Instr.queryLimits x0 x1) :=
  fun _ _ => ⟨rfl, rfl, rfl⟩
theorem queryZones : ∀ x0, Statement (Instr.queryZones x0) :=
  fun _ => ⟨rfl, rfl, rfl⟩
theorem queryJoystick : ∀ x0 x1, Statement (Instr.queryJoystick x0 x1) :=
  fun _ _ => ⟨rfl, rfl, rfl⟩
theorem queryDirectory : ∀ x0 x1, Statement (Instr.queryDirectory x0 x1) :=
  fun _ _ => ⟨rfl, rfl, rfl⟩
theorem queryCueList : ∀ x0 x1, Statement (Instr.queryCueList x0 x1) :=
  fun _ _ => ⟨rfl, rfl, rfl⟩
theorem queryViews : ∀ x0, Statement (Instr.queryViews x0) :=
  fun _ => ⟨rfl, rfl, rfl⟩
theorem queryCache : ∀ x0, Statement (Instr.queryCache x0) :=
  fun _ => ⟨rfl, rfl, rfl⟩
theorem queryBlend : ∀ x0 x1, Statement (Instr.queryBlend x0 x1) :=
  fun _ _ => ⟨rfl, rfl, rfl⟩
theorem queryCoupling : ∀ x0, Statement (Instr.queryCoupling x0) :=
  fun _ => ⟨rfl, rfl, rfl⟩
theorem queryTimecode : ∀ x0, Statement (Instr.queryTimecode x0) :=
  fun _ => ⟨rfl, rfl, rfl⟩
theorem queryBus : ∀ x0, Statement (Instr.queryBus x0) :=
  fun _ => ⟨rfl, rfl, rfl⟩
theorem queryFaults : ∀ x0, Statement (Instr.queryFaults x0) :=
  fun _ => ⟨rfl, rfl, rfl⟩
theorem status : ∀ x0, Statement (Instr.status x0) :=
  fun _ => ⟨rfl, rfl, rfl⟩
theorem setReport : ∀ x0 x1, Statement (Instr.setReport x0 x1) :=
  fun _ _ => ⟨rfl, rfl, rfl⟩
theorem releaseClear : ∀ x0, Statement (Instr.releaseClear x0) :=
  fun _ => ⟨rfl, rfl, rfl⟩
theorem setProfile : ∀ x0 x1 x2 x3 x4 x5 x6, Statement (Instr.setProfile x0 x1 x2 x3 x4 x5 x6) :=
  fun _ _ _ _ _ _ _ => ⟨rfl, rfl, rfl⟩
theorem setStaleLimit : ∀ x0 x1 x2, Statement (Instr.setStaleLimit x0 x1 x2) :=
  fun _ _ _ => ⟨rfl, rfl, rfl⟩
theorem setView : ∀ x0 x1 x2 x3 x4 x5, Statement (Instr.setView x0 x1 x2 x3 x4 x5) :=
  fun _ _ _ _ _ _ => ⟨rfl, rfl, rfl⟩
theorem purge : ∀ x0 x1, Statement (Instr.purge x0 x1) :=
  fun _ _ => ⟨rfl, rfl, rfl⟩
theorem setFitted : ∀ x0 x1, Statement (Instr.setFitted x0 x1) :=
  fun _ _ => ⟨rfl, rfl, rfl⟩
theorem setLimits : ∀ x0 x1 x2 x3 x4 x5 x6 x7 x8, Statement (Instr.setLimits x0 x1 x2 x3 x4 x5 x6 x7 x8) :=
  fun _ _ _ _ _ _ _ _ _ => ⟨rfl, rfl, rfl⟩
theorem setZone : ∀ x0 x1 x2 x3 x4, Statement (Instr.setZone x0 x1 x2 x3 x4) :=
  fun _ _ _ _ _ => ⟨rfl, rfl, rfl⟩
theorem setBankEntry : ∀ x0 x1 x2 x3 x4 x5, Statement (Instr.setBankEntry x0 x1 x2 x3 x4 x5) :=
  fun _ _ _ _ _ _ => ⟨rfl, rfl, rfl⟩
theorem setCueEntry : ∀ x0 x1 x2 x3 x4 x5, Statement (Instr.setCueEntry x0 x1 x2 x3 x4 x5) :=
  fun _ _ _ _ _ _ => ⟨rfl, rfl, rfl⟩
theorem setCoupling : ∀ x0 x1 x2 x3 x4 x5, Statement (Instr.setCoupling x0 x1 x2 x3 x4 x5) :=
  fun _ _ _ _ _ _ => ⟨rfl, rfl, rfl⟩
theorem tcRun : ∀ x0, Statement (Instr.tcRun x0) :=
  fun _ => ⟨rfl, rfl, rfl⟩
theorem tcStop : ∀ x0, Statement (Instr.tcStop x0) :=
  fun _ => ⟨rfl, rfl, rfl⟩
theorem setTimecode : ∀ x0 x1, Statement (Instr.setTimecode x0 x1) :=
  fun _ _ => ⟨rfl, rfl, rfl⟩
theorem offsetTimecode : ∀ x0 x1 x2, Statement (Instr.offsetTimecode x0 x1 x2) :=
  fun _ _ _ => ⟨rfl, rfl, rfl⟩
theorem setRate : ∀ x0 x1, Statement (Instr.setRate x0 x1) :=
  fun _ _ => ⟨rfl, rfl, rfl⟩
theorem setBusConfig : ∀ x0 x1 x2 x3, Statement (Instr.setBusConfig x0 x1 x2 x3) :=
  fun _ _ _ _ => ⟨rfl, rfl, rfl⟩
theorem busStart : ∀ x0, Statement (Instr.busStart x0) :=
  fun _ => ⟨rfl, rfl, rfl⟩
theorem busStop : ∀ x0, Statement (Instr.busStop x0) :=
  fun _ => ⟨rfl, rfl, rfl⟩
theorem setFaultActions : ∀ x0 x1 x2, Statement (Instr.setFaultActions x0 x1 x2) :=
  fun _ _ _ => ⟨rfl, rfl, rfl⟩
theorem setFaultTimers : ∀ x0 x1 x2, Statement (Instr.setFaultTimers x0 x1 x2) :=
  fun _ _ _ => ⟨rfl, rfl, rfl⟩
theorem faultClear : ∀ x0 x1, Statement (Instr.faultClear x0 x1) :=
  fun _ _ => ⟨rfl, rfl, rfl⟩
theorem saveStore : ∀ x0, Statement (Instr.saveStore x0) :=
  fun _ => ⟨rfl, rfl, rfl⟩
theorem restart : ∀ x0, Statement (Instr.restart x0) :=
  fun _ => ⟨rfl, rfl, rfl⟩
theorem joy : ∀ x0 x1 x2, Statement (Instr.joy x0 x1 x2) :=
  fun _ _ _ => ⟨rfl, rfl, rfl⟩
theorem frameReceived : ∀ x0 x1 x2, Statement (Instr.frameReceived x0 x1 x2) :=
  fun _ _ _ => ⟨rfl, rfl, rfl⟩
theorem frameLeavesQueue : ∀ x0 x1, Statement (Instr.frameLeavesQueue x0 x1) :=
  fun _ _ => ⟨rfl, rfl, rfl⟩
theorem powerOn : ∀ x0, Statement (Instr.powerOn x0) :=
  fun _ => ⟨rfl, rfl, rfl⟩
theorem lowSupply : ∀ x0, Statement (Instr.lowSupply x0) :=
  fun _ => ⟨rfl, rfl, rfl⟩
theorem resetPin : ∀ x0, Statement (Instr.resetPin x0) :=
  fun _ => ⟨rfl, rfl, rfl⟩
theorem powerUpHoldEnd : ∀ x0 x1, Statement (Instr.powerUpHoldEnd x0 x1) :=
  fun _ _ => ⟨rfl, rfl, rfl⟩
theorem configurationLoad : ∀ x0 x1, Statement (Instr.configurationLoad x0 x1) :=
  fun _ _ => ⟨rfl, rfl, rfl⟩
theorem estop : ∀ x0, Statement (Instr.estop x0) :=
  fun _ => ⟨rfl, rfl, rfl⟩
theorem genlockPulse : ∀ x0, Statement (Instr.genlockPulse x0) :=
  fun _ => ⟨rfl, rfl, rfl⟩
theorem genlockLossEvent : ∀ x0, Statement (Instr.genlockLossEvent x0) :=
  fun _ => ⟨rfl, rfl, rfl⟩
theorem frameStart : ∀ x0 x1, Statement (Instr.frameStart x0 x1) :=
  fun _ _ => ⟨rfl, rfl, rfl⟩
theorem busSyncEdge : ∀ x0 x1, Statement (Instr.busSyncEdge x0 x1) :=
  fun _ _ => ⟨rfl, rfl, rfl⟩
theorem busSyncLost : ∀ x0, Statement (Instr.busSyncLost x0) :=
  fun _ => ⟨rfl, rfl, rfl⟩
theorem waitExpiry : ∀ x0 x1, Statement (Instr.waitExpiry x0 x1) :=
  fun _ _ => ⟨rfl, rfl, rfl⟩
theorem staleEntry : ∀ x0 x1, Statement (Instr.staleEntry x0 x1) :=
  fun _ _ => ⟨rfl, rfl, rfl⟩
theorem escalationExpiry : ∀ x0, Statement (Instr.escalationExpiry x0) :=
  fun _ => ⟨rfl, rfl, rfl⟩
theorem stopTimerExpiry : ∀ x0, Statement (Instr.stopTimerExpiry x0) :=
  fun _ => ⟨rfl, rfl, rfl⟩
theorem saveCompletion : ∀ x0 x1, Statement (Instr.saveCompletion x0 x1) :=
  fun _ _ => ⟨rfl, rfl, rfl⟩
theorem estopInactive : ∀ x0, Statement (Instr.estopInactive x0) :=
  fun _ => ⟨rfl, rfl, rfl⟩
theorem resetRelease : ∀ x0, Statement (Instr.resetRelease x0) :=
  fun _ => ⟨rfl, rfl, rfl⟩
theorem saveMarkerWritten : ∀ x0, Statement (Instr.saveMarkerWritten x0) :=
  fun _ => ⟨rfl, rfl, rfl⟩

end Sys2Proof.Laws.Kind
end

