-- ==== Sys2Proof/Laws/Stages.lean ====
section
/-! SUPPORT. What the slots, the ports, the ownership notices and the stages of a frame computation do, said once for
the proofs to cite. -/

namespace Sys2Proof.Machine

/-! ## Slots (R135) -/

@[simp] theorem eachSlot_get {α : Type} (f : Fin 16 → α) (n : Fin 16) : (eachSlot f)[n] = f n := by
  rcases n with ⟨n, hn⟩
  have hall : n = 0 ∨ n = 1 ∨ n = 2 ∨ n = 3 ∨ n = 4 ∨ n = 5 ∨ n = 6 ∨ n = 7 ∨ n = 8 ∨ n = 9 ∨ n = 10 ∨
      n = 11 ∨ n = 12 ∨ n = 13 ∨ n = 14 ∨ n = 15 := by omega
  rcases hall with h | h | h | h | h | h | h | h | h | h | h | h | h | h | h | h <;> subst h <;> rfl

theorem mem_slotNumbers : ∀ n : Fin 16, n ∈ slotNumbers := by decide

/-- The word an axis receives is the one of its FEEDBACK slot, where the slot map has one alone. -/
theorem readSlots_get (w : SlotWords) {s : State} {a : Axis} {n : Fin 16} (h : s.settings.slots[n] = .feedback a)
    (hu : ∀ k : Fin 16, s.settings.slots[k] = .feedback a → k = n) : (readSlots w s).get a = w[n] := by
  have hf : feedbackSlot s a = some n := by
    unfold feedbackSlot
    cases hx : slotNumbers.find? (fun n => s.settings.slots[n] == .feedback a) with
    | none =>
      rw [List.find?_eq_none] at hx
      exact absurd (by simp [h]) (hx n (mem_slotNumbers n))
    | some k => rw [hu k (by simpa using List.find?_some hx)]
  simp [readSlots, hf]

/-! ## Sending (R157, R163) -/

/-- A port that is CLOSED or has no frame to send sends nothing. -/
theorem Port.send_idle {p : Port} (free : Nat → List Octet) (h : p.link = .closed ∨ p.tx = []) : p.send free = p := by
  unfold Port.send
  rcases h with h | h
  · rw [h]
  · rw [h]; split <;> simp_all

/-- An OPEN port sends the head of its transmit queue on its line. -/
theorem Port.send_head {p : Port} (free : Nat → List Octet) {f : LinkFrame} {rest : List LinkFrame} (h : p.link = .opened)
    (ht : p.tx = f :: rest) : p.send free = { p with tx := rest, line := onLine (f.raw free) } := by
  unfold Port.send; rw [h, ht]

/-! ## Ownership notices (R27, R29) -/

/-- A number found in a list is found first somewhere. -/
theorem exists_first {f : Axis → Bool} {l : List Axis} (h : ∃ a ∈ l, f a = true) :
    ∃ a ∈ l, f a = true ∧ (l.takeWhile fun b => b != a).any f = false := by
  induction l with
  | nil => obtain ⟨a, h, _⟩ := h; cases h
  | cons c l ih =>
    obtain ⟨a, ha, hf⟩ := h
    by_cases hc : f c = true
    · exact ⟨c, by simp, hc, by simp⟩
    · rcases List.mem_cons.1 ha with rfl | ha
      · exact absurd hf hc
      · obtain ⟨b, h1, h2, h3⟩ := ih ⟨a, ha, hf⟩
        refine ⟨b, by simp [h1], h2, ?_⟩
        rw [List.takeWhile_cons_of_pos (by simp; rintro rfl; exact hc h2), List.any_cons, h3]
        simpa using hc

/-- The grouped notices of one kind to one recipient: one for each new owner, with every axis that falls under
it. -/
theorem mem_groupedPosts {dest : Master} {f : Axis → Option Master} {mk : AxisSet → Master → Notice} {p : Post} :
    p ∈ groupedPosts dest f mk ↔
      ∃ n, (∃ a, f a = some n) ∧ p = ⟨dest, mk (AxisSet.ofTest fun b => f b == some n) n⟩ := by
  unfold groupedPosts
  simp only [List.mem_filterMap]
  constructor
  · rintro ⟨a, _, h⟩
    split at h
    · cases h
    · rename_i n hn
      split at h
      · cases h
      · exact ⟨n, ⟨a, hn⟩, (Option.some.inj h).symm⟩
  · rintro ⟨n, ⟨a, ha⟩, rfl⟩
    obtain ⟨b, hb, h1, h2⟩ := exists_first (f := fun b => f b == some n) ⟨a, Axis.mem_all a, by simp [ha]⟩
    refine ⟨b, hb, ?_⟩
    rw [beq_iff_eq] at h1
    simp only [h1, h2]; rfl

/-! ## The stages of a frame computation (R102) -/

/-- What the preset step and stage 2 leave alone. -/
def besideBlend (s : State) : PerAxis Demand × Settings × Vector Bool 8 × Bus :=
  (s.demand, s.settings, s.armed, s.bus)

theorem takeMove_beside (k : PerAxis Int) (m : Move) (s : State) :
    besideBlend (takeMove k m s).state = besideBlend s := by
  unfold takeMove boundary
  repeat' split
  all_goals rfl

theorem startMove_beside (k : PerAxis Int) (m : Move) (s : State) :
    besideBlend (startMove k m s).state = besideBlend s := by
  unfold startMove
  split
  · rfl
  · simp only; split <;> rfl

theorem startPass_beside (k : PerAxis Int) (l : List Move) (x : AxisSet) (s : State) :
    besideBlend (startPass k x l s).state = besideBlend s := by
  induction l generalizing x s with
  | nil => rfl
  | cons m l ih => exact (ih _ _).trans (whenever_same (startMove_beside k m) _ _)

/-- The preset step and stage 2 leave demands, settings, armed flags and the bus alone. -/
theorem stageTwo_presetStep_beside (x : AxisSet) (k : PerAxis Int) (s : State) :
    besideBlend (stageTwo x k (presetStep k s).state).state = besideBlend s :=
  (startPass_beside _ _ _ _).trans (emitEach_same (takeMove_beside k) _ _)

/-- A reading that raises and the clamped condition keep is kept by the raises of the limiter and the zones. -/
theorem limitRaises_keep {α : Type} {g : State → α} (o : ∀ src info s, g (raise src info s).state = g s)
    (oc : ∀ a b s, g (setClamped a b s) = g s) (x : List Axis) (hit : Axis → Bool) (z : List (Fin 8)) (s : State) :
    g (emitEach z raiseZoneEntry (emitEach x (fun a => judgeClamp (hit a) a) s).state).state = g s :=
  (emitEach_same (fun _ s => o _ _ s) _ _).trans
    (emitEach_same (fun _ s => (whenever_same (o _ _) _ _).trans (oc _ _ s)) _ _)

/-- Stages 3 to 6 write the candidates that the zone check leaves, after raises that keep settings and demands. -/
theorem limitStage_spec (x : AxisSet) (k : PerAxis Int) (s : State) : ∃ r : State,
    (limitStage x k s).state =
      writeDemands x k (zoneCheck s (candidates k s)).candidates (disarmReleased r) ∧
    r.settings = s.settings ∧ r.demand = s.demand :=
  ⟨_, rfl,
    limitRaises_keep (g := fun s : State => s.settings)
      (raise_keeps ⟨⟨fun _ _ => rfl⟩, fun _ _ => rfl, fun _ _ => rfl, fun _ _ => rfl⟩) (fun _ _ _ => rfl) _ _ _ _,
    limitRaises_keep (g := fun s : State => s.demand)
      (raise_keeps ⟨⟨fun _ _ => rfl⟩, fun _ _ => rfl, fun _ _ => rfl, fun _ _ => rfl⟩) (fun _ _ _ => rfl) _ _ _ _⟩

theorem countReports_spec (l : List Master) (s : State) :
    ∃ po, (emitEach l countReport s).state = { s with ports := po } := by
  induction l generalizing s with
  | nil => exact ⟨_, rfl⟩
  | cons m l ih =>
    have h1 : ∃ po, (countReport m s).state = { s with ports := po } := by
      unfold countReport; simp only
      repeat' split
      all_goals exact ⟨_, rfl⟩
    obtain ⟨p1, h1⟩ := h1
    obtain ⟨p2, h2⟩ := ih (countReport m s).state
    refine ⟨p2, ?_⟩
    show (emitEach l countReport (countReport m s).state).state = _
    rw [h2, h1]

/-- What follows stage 6 arms the zones and writes the queue, the ports, the bus and the fault unit alone. -/
theorem frameComputation_spec (s : State) : ∃ q po b f, (frameComputation s).state =
    { armZones (computeDemands (drivenSet s) (trackedSet s) (PerAxis.ofFn (couplingOffset s)) s).state with
      queue := q, ports := po, bus := b, faults := f } := by
  have h0 : (frameComputation s).state = (emitEach Master.all countReport (safeStopRest (armZones (restTest
      (computeDemands (drivenSet s) (trackedSet s) (PerAxis.ofFn (couplingOffset s)) s).state).state)).state).state := by
    unfold frameComputation; simp only [andThen_state, quiet_state]
  rw [h0]
  generalize (computeDemands (drivenSet s) (trackedSet s) (PerAxis.ofFn (couplingOffset s)) s).state = u
  obtain ⟨po, h1⟩ := countReports_spec Master.all (safeStopRest (armZones (restTest u).state)).state
  have h2 : ∃ q b f, (safeStopRest (armZones (restTest u).state)).state =
      { armZones (restTest u).state with queue := q, bus := b, faults := f } := by
    unfold safeStopRest whenever
    split <;> exact ⟨_, _, _, rfl⟩
  obtain ⟨q, b, f, h2⟩ := h2
  exact ⟨q, po, b, f, by rw [h1, h2]; rfl⟩

end Sys2Proof.Machine
end

