-- ==== Sys2Proof/Tests/Slice0.lean ====
section
/-! SUPPORT. The writer's own tests: ill-formed commands, worked examples of the spec, and for every statement with
hypotheses states and operands that meet them. -/

namespace Sys2Proof.Tests

open Sys2Proof.Machine

/-! ## States to test in -/

/-- A request's header. -/
def from' (m : Master) : Header := { elapsed := 0, link := m, tag := 7#8 }

/-- Console A's header. -/
def hA : Header := from' .consoleA

/-- Console B's header. -/
def hB : Header := from' .consoleB

/-- The supervisor's header. -/
def hS : Header := from' .supervisor

/-- An OPEN port. -/
def port : Port := { Port.reset with link := .opened }

/-- The part at READY. -/
def live : State :=
  { State.reset with
    startup := { Startup.reset with phase := .ready }
    ports := PerMaster.fill port }

/-- Every axis owned by a master. -/
def ownedBy' (m : Master) (s : State) : State :=
  { s with authority := PerAxis.fill { Authority.reset with owner := some m } }

/-- The bus RUNNING, the latch clear, the safe stop NORMAL, every drive READY with a GOOD echo. -/
def onBus (e : DriveEnable) (s : State) : State :=
  { s with
    bus := { Bus.reset with
      state := .running, latch := false
      drives := PerAxis.fill { Drive.reset with enable := e, state := .ready, echo := .good } }
    faults := { FaultUnit.reset with safeStop := .normal } }

/-- Console A owns every axis, every drive is ENABLED. -/
def driving : State := onBus .enabled (ownedBy' .consoleA live)

/-- A keyframe of LIFT. -/
def keyframe : Keyframe :=
  { targets := { PerAxis.fill none with lift := some 1000 }, duration := 4, shape := .linear, gate := false }

/-- A record on LIFT. -/
def record : PresetRecord :=
  { body := some { axes := 4#8, keyframes := [keyframe], label := none }, key := 0, guarded := false
    author := none }

/-- Records 0 and 1 held, and bank 0 of directory 0 a run from record 0. -/
def stored (s : State) : State :=
  { s with store :=
      { records := [(0, record), (1, record)], cues := []
        banks := [(0, { locked := false, target := .run 0 16 })] } }

/-- A move of Console A on LIFT. -/
def move (id : Nat) (st : MoveState) : Move :=
  { id := id, requester := .consoleA, record := 0, axes := 4#8, state := st, cue := .now, satisfied := true
    goPending := false, speed := 100, keyframe := none, segment := none, stopOutcome := none }

/-- A queue of moves. -/
def moving (q : List Move) (s : State) : State := { s with queue := q }

/-- One port replaced. -/
def withPort (f : Port → Port) (s : State) : State := s.setPort .consoleA (f (s.ports.get .consoleA))

/-! ## Ill-formed commands -/

theorem test_wf_claim : (Instr.claim hA 4#8 255).wf = true ∧ (Instr.claim hA 4#8 256).wf = false := by decide
theorem test_wf_yield : (Instr.yield hA 4#8 256).wf = false := by decide
theorem test_wf_setMode : (Instr.setMode hA 4#8 256).wf = false := by decide
theorem test_wf_takeLive : (Instr.takeLive hA 4#8 65535).wf = true ∧ (Instr.takeLive hA 4#8 65536).wf = false := by
  decide
theorem test_wf_storePreset :
    (Instr.storePreset hA 256 0 4#8 0 [] []).wf = false ∧ (Instr.storePreset hA 0 256 4#8 0 [] []).wf = false ∧
    (Instr.storePreset hA 0 0 4#8 256 [] []).wf = false ∧
    (Instr.storePreset hA 0 0 4#8 0 (List.replicate 14 32#8) []).wf = false ∧
    (Instr.storePreset hA 0 0 4#8 0 [] [⟨[8388608], 1, 0, 0⟩]).wf = false ∧
    (Instr.storePreset hA 0 0 4#8 0 [] [⟨[-8388609], 1, 0, 0⟩]).wf = false ∧
    (Instr.storePreset hA 0 0 4#8 0 [] [⟨[0], 65536, 0, 0⟩]).wf = false ∧
    (Instr.storePreset hA 0 0 4#8 0 [] [⟨[0], 1, 256, 0⟩]).wf = false ∧
    (Instr.storePreset hA 0 0 4#8 0 [] [⟨[0], 1, 0, 256⟩]).wf = false := by decide
theorem test_wf_capture :
    (Instr.capture hA 256 0 4#8 1 0).wf = false ∧ (Instr.capture hA 0 256 4#8 1 0).wf = false ∧
    (Instr.capture hA 0 0 4#8 65536 0).wf = false ∧ (Instr.capture hA 0 0 4#8 1 256).wf = false := by decide
theorem test_wf_appendKeyframe :
    (Instr.appendKeyframe hA 256 0 .unreadable).wf = false ∧ (Instr.appendKeyframe hA 0 256 .unreadable).wf = false ∧
    (Instr.appendKeyframe hA 0 0 (.explicit [(256, 0)] 1 0 0)).wf = false ∧
    (Instr.appendKeyframe hA 0 0 (.explicit [(0, 8388608)] 1 0 0)).wf = false ∧
    (Instr.appendKeyframe hA 0 0 (.explicit [] 65536 0 0)).wf = false ∧
    (Instr.appendKeyframe hA 0 0 (.explicit [] 1 256 0)).wf = false ∧
    (Instr.appendKeyframe hA 0 0 (.explicit [] 1 0 256)).wf = false ∧
    (Instr.appendKeyframe hA 0 0 (.explicit (List.replicate 29 (0, 0)) 1 0 0)).wf = false ∧
    (Instr.appendKeyframe hA 0 0 (.capture 65536 0 0)).wf = false ∧
    (Instr.appendKeyframe hA 0 0 (.capture 1 256 0)).wf = false ∧
    (Instr.appendKeyframe hA 0 0 (.capture 1 0 256)).wf = false := by decide
theorem test_wf_erasePreset : (Instr.erasePreset hA 256 0).wf = false ∧ (Instr.erasePreset hA 0 256).wf = false := by
  decide
theorem test_wf_queryPreset :
    (Instr.queryPreset hA 256 0 0).wf = false ∧ (Instr.queryPreset hA 0 256 0).wf = false ∧
    (Instr.queryPreset hA 0 0 256).wf = false := by decide

/-- A RECALL of a bank, filter kind, speed, cue kind, timecode digit and policy. -/
def recallOf (b p fk v ck d pol : Nat) : Instr :=
  .recallCue hA b p { kind := fk, axes := 0#8 } v { kind := ck, timecode := { zeroTimecode with hh := ⟨d, d⟩ } } pol

theorem test_wf_recall :
    (recallOf 0 0 0 100 0 15 0).wf = true ∧ (recallOf 256 0 0 100 0 0 0).wf = false ∧
    (recallOf 0 256 0 100 0 0 0).wf = false ∧ (recallOf 0 0 256 100 0 0 0).wf = false ∧
    (recallOf 0 0 0 65536 0 0 0).wf = false ∧ (recallOf 0 0 0 100 256 0 0).wf = false ∧
    (recallOf 0 0 0 100 0 16 0).wf = false ∧ (recallOf 0 0 0 100 0 0 256).wf = false := by decide
theorem test_wf_timecode :
    (Timecode.wf { zeroTimecode with mm := ⟨16, 0⟩ }) = false ∧ (Timecode.wf { zeroTimecode with ss := ⟨0, 16⟩ }) = false ∧
    (Timecode.wf { zeroTimecode with ff := ⟨16, 16⟩ }) = false := by decide
theorem test_wf_goAbortSpeed :
    (Instr.go hA 256).wf = false ∧ (Instr.abort hA 256).wf = false ∧ (Instr.speed hA 256 100).wf = false ∧
    (Instr.speed hA 1 65536).wf = false := by decide
theorem test_wf_readings :
    (Instr.queryLimits hA 256).wf = false ∧ (Instr.queryJoystick hA 256).wf = false ∧
    (Instr.queryDirectory hA 256).wf = false ∧ (Instr.queryCueList hA 256).wf = false ∧
    (Instr.setReport hA 256).wf = false ∧ (Instr.purge hA 256).wf = false := by decide
theorem test_wf_setProfile :
    (Instr.setProfile hA 256 0 0 0 0 0).wf = false ∧ (Instr.setProfile hA 1 256 0 0 0 0).wf = false ∧
    (Instr.setProfile hA 1 0 65536 0 0 0).wf = false ∧ (Instr.setProfile hA 1 0 0 65536 0 0).wf = false ∧
    (Instr.setProfile hA 1 0 0 0 65536 0).wf = false ∧ (Instr.setProfile hA 1 0 0 0 0 256).wf = false := by decide
theorem test_wf_setStaleLimit :
    (Instr.setStaleLimit hA 256 50).wf = false ∧ (Instr.setStaleLimit hA 1 256).wf = false := by decide
theorem test_wf_setView :
    (Instr.setView hA 256 1 0 16 0).wf = false ∧ (Instr.setView hA 0 256 0 16 0).wf = false ∧
    (Instr.setView hA 0 1 256 16 0).wf = false ∧ (Instr.setView hA 0 1 0 256 0).wf = false ∧
    (Instr.setView hA 0 1 0 16 256).wf = false := by decide
theorem test_wf_setLimits :
    (Instr.setLimits hS 256 0 1 1 1 0 0 1).wf = false ∧ (Instr.setLimits hS 0 (-8388609) 1 1 1 0 0 1).wf = false ∧
    (Instr.setLimits hS 0 0 8388608 1 1 0 0 1).wf = false ∧ (Instr.setLimits hS 0 0 1 65536 1 0 0 1).wf = false ∧
    (Instr.setLimits hS 0 0 1 1 65536 0 0 1).wf = false ∧ (Instr.setLimits hS 0 0 1 1 1 4294967296 0 1).wf = false ∧
    (Instr.setLimits hS 0 0 1 1 1 0 4294967296 1).wf = false ∧ (Instr.setLimits hS 0 0 1 1 1 0 0 256).wf = false := by
  decide
theorem test_wf_setZone :
    (Instr.setZone hS 256 0 3#8 []).wf = false ∧ (Instr.setZone hS 0 256 3#8 []).wf = false ∧
    (Instr.setZone hS 0 0 3#8 (List.replicate 9 (0, 0))).wf = false ∧
    (Instr.setZone hS 0 0 3#8 [(-8388609, 0)]).wf = false ∧ (Instr.setZone hS 0 0 3#8 [(0, 8388608)]).wf = false := by
  decide
theorem test_wf_setBankEntry :
    (Instr.setBankEntry hS 256 0 0 0 []).wf = false ∧ (Instr.setBankEntry hS 0 256 0 0 []).wf = false ∧
    (Instr.setBankEntry hS 0 0 256 0 []).wf = false ∧ (Instr.setBankEntry hS 0 0 0 256 []).wf = false ∧
    (Instr.setBankEntry hS 0 0 0 0 [0, 0, 0]).wf = false ∧ (Instr.setBankEntry hS 0 0 1 0 [256]).wf = false := by
  decide
theorem test_wf_setCueEntry :
    (Instr.setCueEntry hS 256 0 0 0 0).wf = false ∧ (Instr.setCueEntry hS 0 256 0 0 0).wf = false ∧
    (Instr.setCueEntry hS 0 0 256 0 0).wf = false ∧ (Instr.setCueEntry hS 0 0 0 256 0).wf = false ∧
    (Instr.setCueEntry hS 0 0 0 0 256).wf = false := by decide
theorem test_wf_setCoupling :
    (Instr.setCoupling hS 256 0 0 1 0).wf = false ∧ (Instr.setCoupling hS 0 256 0 1 0).wf = false ∧
    (Instr.setCoupling hS 0 0 256 1 0).wf = false ∧ (Instr.setCoupling hS 0 0 0 256 0).wf = false ∧
    (Instr.setCoupling hS 0 0 0 1 (-32769)).wf = false ∧ (Instr.setCoupling hS 0 0 0 1 32768).wf = false := by decide
theorem test_wf_counterRequests :
    (Instr.setTimecode hS { zeroTimecode with hh := ⟨16, 0⟩ }).wf = false ∧
    (Instr.offsetTimecode hS 256 zeroTimecode).wf = false ∧
    (Instr.offsetTimecode hS 0 { zeroTimecode with hh := ⟨16, 0⟩ }).wf = false ∧ (Instr.setRate hS 256).wf = false := by
  decide
theorem test_wf_setBusConfig :
    (Instr.setBusConfig hS 256 1000 (List.replicate 16 0)).wf = false ∧
    (Instr.setBusConfig hS 0 65536 (List.replicate 16 0)).wf = false ∧
    (Instr.setBusConfig hS 0 1000 (List.replicate 15 0)).wf = false ∧
    (Instr.setBusConfig hS 0 1000 (List.replicate 16 256)).wf = false := by decide
theorem test_wf_faultRequests :
    (Instr.setFaultActions hS 256 0).wf = false ∧ (Instr.setFaultActions hS 2 256).wf = false ∧
    (Instr.setFaultTimers hS 65536 30).wf = false ∧ (Instr.setFaultTimers hS 100 256).wf = false := by decide
theorem test_wf_events :
    (Instr.joy 0 .consoleA (PerAxis.fill 32768)).wf = false ∧ (Instr.joy 0 .consoleA (PerAxis.fill (-32769))).wf = false ∧
    (Instr.frameReceived 0 .consoleA [0#8, 165#8]).wf = false ∧
    (Instr.saveCompletion 0 (.failed 0 .noAnswer)).wf = false ∧
    (Instr.saveCompletion 0 (.failed 5 .mismatch)).wf = false := by decide

/-! ## Worked examples of the spec -/

/-- LIFT's limits in 1.6. -/
def liftLimits : Limits := { Limits.builtIn with softMax := 50000 }

/-- Section 1.6, frames 1 to 5. -/
theorem test_limiter_1_6 :
    candidate liftLimits ⟨48500, 48000⟩ 60000 = 49020 ∧ candidate liftLimits ⟨49020, 48500⟩ 60000 = 49560 ∧
    candidate liftLimits ⟨49560, 49020⟩ 60000 = 50000 ∧ stepFourClamps liftLimits ⟨49560, 49020⟩ 60000 = true ∧
    candidate liftLimits ⟨50000, 49560⟩ 60000 = 50000 ∧ candidate liftLimits ⟨50000, 50000⟩ 49000 = 49980 ∧
    stepFourClamps liftLimits ⟨50000, 50000⟩ 49000 = false := by decide

/-- The zone of 1.8. -/
def zone2 : ZoneSetting :=
  { enabled := true, axes := 36#8
    bounds := { PerAxis.fill ⟨0, 0⟩ with lift := ⟨0, 10000⟩, tilt := ⟨-5000, 5000⟩ } }

/-- Section 1.8 before frame c: zone 2 armed, LIFT at 10,010. -/
def zoned (armed : Bool) : State :=
  { driving with
    settings := { Settings.builtIn with zones := (Vector.replicate 8 ZoneSetting.builtIn).set 2 zone2 }
    armed := (Vector.replicate 8 false).set 2 armed
    demand := { PerAxis.fill ⟨0, 0⟩ with lift := ⟨10010, 10010⟩ } }

/-- Section 1.8, frames c and b: an armed zone turns a candidate inside it into D1, and lets one outside be. -/
theorem test_zone_1_8 :
    (zoneCheck (zoned true) { PerAxis.fill 0 with lift := 9990 }).candidates.lift = 10010 ∧
    (zoneCheck (zoned true) { PerAxis.fill 0 with lift := 9990 }).entered = [2] ∧
    (zoneCheck (zoned true) { PerAxis.fill 0 with lift := 10010 }).entered = [] ∧
    (zoneCheck (zoned false) { PerAxis.fill 0 with lift := 9990 }).entered = [] ∧
    (armZones (zoned false)).armed[2] = true := by decide

/-- Section 3.5's profile at an expo. -/
def profile (e : Nat) : Profile := { deadband := 47, expo := e, gain := 1000, invert := false }

/-- The table of 3.5. -/
theorem test_shaping_3_5 :
    shape (profile 128) 0 = 0 ∧ shape (profile 128) 47 = 0 ∧ shape (profile 128) 48 = 0 ∧
    shape (profile 128) 1047 = 312 ∧ shape (profile 128) (-1047) = -312 ∧ shape (profile 128) 2047 = 1000 ∧
    shape (profile 0) 1047 = 499 ∧ shape (profile 256) 1047 = 124 ∧
    shape { profile 128 with invert := true } 1047 = -312 := by decide

/-- The table of 6.4, and L at both speeds. -/
theorem test_segments_6_4 :
    segmentLength 4 100 = 4 ∧ segmentLength 4 200 = 2 ∧
    (List.range 5).map (fun e => presetPosition .linear ⟨0, 1000⟩ e 4) = [0, 250, 500, 750, 1000] ∧
    (List.range 5).map (fun e => presetPosition .ease ⟨0, 1000⟩ e 4) = [0, 156, 500, 843, 1000] ∧
    (List.range 5).map (fun e => presetPosition .dwell ⟨0, 1000⟩ e 4) = [0, 0, 0, 0, 0] := by decide

/-- A state of 7.3.1 with TELE's D1 at a position. -/
def coupled (tele : Int) : State :=
  { live with
    couplings := (Vector.replicate 4 Coupling.reset).set 0
      { enabled := true, source := .tele, target := .lift, gain := -64, reference := 10000 }
    demand := { PerAxis.fill ⟨0, 0⟩ with tele := ⟨tele, tele⟩ } }

/-- The offsets of 7.3.1. -/
theorem test_coupling_7_3_1 :
    couplingOffset (coupled 10000) .lift = 0 ∧ couplingOffset (coupled 10100) .lift = -25 ∧
    couplingOffset (coupled 10300) .lift = -75 ∧ couplingOffset (coupled 10300) .tele = 0 := by decide

/-- A timecode of four two-digit fields. -/
def tc (h m s f : Nat) : Timecode :=
  { hh := ⟨h / 10, h % 10⟩, mm := ⟨m / 10, m % 10⟩, ss := ⟨s / 10, s % 10⟩, ff := ⟨f / 10, f % 10⟩ }

/-- Section 8.9: across midnight and back. -/
theorem test_offset_8_9 :
    positionInDay .fps25 (tc 23 59 58 20) = 2159970 ∧
    addTimecode .fps25 (tc 23 59 58 20) (tc 0 0 1 10) = tc 0 0 0 5 ∧
    subtractTimecode .fps25 (tc 0 0 0 5) (tc 0 0 1 10) = tc 23 59 58 20 ∧
    advanceCounter .fps25 (tc 23 59 59 24) = tc 0 0 0 0 := by decide

/-- Section 8.8: which periods are good at 25 frames per second. -/
theorem test_periods_8_8 :
    goodPeriod .fps25 400010 = true ∧ goodPeriod .fps25 409500 = false ∧ goodPeriod .fps25 392000 = true ∧
    goodPeriod .fps25 391999 = false ∧ lossThreshold .fps25 = 600000 := by decide

set_option maxRecDepth 8000 in
/-- The check of the octets of "123456789", a known value of this CRC. -/
theorem test_crc : crc [49#8, 50#8, 51#8, 52#8, 53#8, 54#8, 55#8, 56#8, 57#8] = 0x29B1#16 := by decide

/-- R157's escapes. -/
theorem test_escapes :
    escape [165#8, 166#8, 1#8] = [166#8, 181#8, 166#8, 182#8, 1#8] ∧
    unescape [166#8, 181#8, 166#8, 182#8, 1#8] = some [165#8, 166#8, 1#8] ∧ unescape [166#8] = none ∧
    unescape [166#8, 180#8] = none := by decide

/-- Section 2.10.1: Console A owns LIFT and Console B waits until 15.000. -/
def contested (ms : Nat) : State :=
  { live with
    timebase := { ms := ms, counts := 0 }
    authority := { PerAxis.fill Authority.reset with
      lift := { owner := some .consoleA, yielding := false, waiting := [⟨.consoleB, 15000⟩] } } }

/-- What a command leaves in a transmit queue. -/
def sent (m : Master) (i : Instr) (s : State) : List LinkFrame :=
  match exec i s with
  | .next t => (t.ports.get m).tx
  | .fault _ | .refused _ => []

/-- An OK reply of a request from `from'`. -/
def ok (d : ReplyData) : LinkFrame := .reply 7#8 { refusal := none, omitted := 0, data := d }

/-- A refusal. -/
def no (c : RefusalCode) : LinkFrame := .reply 7#8 { refusal := some c, omitted := 0, data := .none }

/-- Section 2.10.1, at 12.000, 11.200 and 15.000. -/
theorem test_claim_2_10_1 :
    sent .consoleB (.claim hB 4#8 90) (contested 12000) =
      [ok (.outcomes [.alreadyWaiting (some .consoleA) 1 3000])] ∧
    sent .supervisor (.claim hS 4#8 20) (contested 11200) =
      [ok (.outcomes [.waiting (some .consoleA) 2 2000])] ∧
    sent .consoleB (.waitExpiry 0 .consoleB) (contested 15000) =
      [.notice (.waitExpired [(.lift, some .consoleA)])] ∧
    sent .consoleB (.waitExpiry 0 .consoleB) (contested 14999) = [] := by decide

/-- Section 2.10.1, at 14.000: the reply and the two copies of GRANTED. -/
theorem test_release_2_10_1 :
    sent .consoleA (.release hA 4#8) (contested 14000) = [ok (.outcomes [.passed (some .consoleB)])] ∧
    sent .consoleB (.release hA 4#8) (contested 14000) = [.notice (.granted 4#8 .consoleB)] ∧
    sent .supervisor (.release hA 4#8) (contested 14000) = [.notice (.granted 4#8 .consoleB)] := by decide

theorem test_privilege :
    sent .consoleA (.tcRun hA) live = [no .notPermitted] ∧ sent .supervisor (.tcRun hS) live = [ok .none] := by decide

theorem test_unfitted_empty :
    sent .consoleA (.enable hA 0#8) live = [no .badArgument] ∧
    sent .consoleA (.enable hA 4#8) live = [ok (.outcomes [.notOwner])] := by decide

theorem test_recall :
    sent .consoleA (recallOf 0 1 0 100 0 0 0) (stored driving) =
      [ok (.recalled 1 1 4#8 [])] ∧
    sent .consoleA (recallOf 1 0 0 100 0 0 0) (stored driving) = [no .bankEmpty] := by decide

theorem test_abortQueued :
    sent .consoleA (.abort hA 3) (moving [move 3 .queued] driving) =
      [ok .none, .notice (.moveDone 3 0 .aborted)] := by decide

theorem test_readyGreets :
    sent .consoleA (.configurationLoad 0 .silent)
        { State.reset with startup := { Startup.reset with phase := .loading } } =
      [.notice (.hello .powerOn false .defaults Config.partRevision)] := rfl

/-! ## Requests and frames at a port: states and operands that meet the statements' hypotheses -/

/-- Console A's port as a request finds it. -/
def portNow (s : State) : Port := (elapse 0 s).ports.get .consoleA

/-- Some frames that wait to be sent. -/
def frames (n : Nat) : List LinkFrame := List.replicate n (no .saving)

/-- READY with a receive buffer and a number of frames in the transmit queue. -/
def queued (l : List Instr) (n : Nat) : State := withPort (fun p => { p with rx := l, tx := frames n }) live

/-- Requests of another kind. -/
def others (n : Nat) : List Instr := List.replicate n (.queryBus hA)

theorem test_witness_CountsMoveTheClockAndTheCounters : State.reset.pending = [] := rfl

theorem test_witness_RequestsAreHandedHeldOrDropped :
    requestHeader (.status hA) = some hA ∧ (portNow State.reset).link = .closed ∧
    ((portNow (queued [.status hA] 8)).link = .opened ∧
      (portNow (queued [.status hA] 8)).rx.head? = some (Instr.status hA).unstamped ∧
      8 ≤ (portNow (queued [.status hA] 8)).tx.length) ∧
    ((portNow (queued (others 3) 0)).rx.head? ≠ some (Instr.status hA).unstamped ∧
      (portNow (queued (others 3) 0)).rx ≠ [] ∧ (portNow (queued (others 3) 0)).rx.length < 4) ∧
    ((portNow (queued [] 8)).rx.head? ≠ some (Instr.status hA).unstamped ∧
      8 ≤ (portNow (queued [] 8)).tx.length) ∧
    ((portNow (queued (others 4) 0)).rx.head? ≠ some (Instr.status hA).unstamped ∧
      4 ≤ (portNow (queued (others 4) 0)).rx.length) ∧
    ((portNow (queued [.status hA] 7)).rx.head? = some (Instr.status hA).unstamped ∧
      (portNow (queued [.status hA] 7)).tx.length < 8) ∧
    ((portNow (queued [] 7)).link = .opened ∧ (portNow (queued [] 7)).rx = [] ∧
      (portNow (queued [] 7)).tx.length < 8) := by decide

theorem test_witness_EveryTakenRequestIsAnsweredOnce :
    requestHeader (.status hA) = some hA ∧ (∀ h', Instr.status hA ≠ .restart h') ∧ taken (.status hA) live live :=
  ⟨rfl, fun _ => nofun, rfl⟩

theorem test_witness_SupervisorKindsNeedThePrivilege :
    41 ≤ kindNumber (.tcRun hA) ∧ requestHeader (.tcRun hA) = some hA ∧ taken (.tcRun hA) live live ∧
      actsAsSupervisor live .consoleA = false := ⟨by decide, rfl, rfl, rfl⟩

/-- A frame of a kind and payload as the line carries it. -/
def frameOf (kind : Octet) (l : List Octet) : List Octet := sealFrame { kind := kind, tag := 0#8, payload := l }

set_option maxRecDepth 20000 in
theorem test_witness_FramesAreJudgedAtTheirFlag :
    (portNow State.reset).link = .closed ∧ (portNow live).link = .opened ∧
    (frameInput .consoleA [1#8] = none ∧ (portNow (withPort (fun p => { p with badRun := 6 }) live)).badRun ≠ 7 ∧
      (portNow (withPort (fun p => { p with badRun := 7 }) live)).badRun = 7) ∧
    frameInput .consoleA (frameOf 1#8 (List.replicate 16 0#8)) = some (.joy (PerAxis.fill 0)) ∧
    frameInput .consoleA (frameOf 34#8 []) = some (.request (.status { hA with tag := 0#8 })) ∧
    (portNow (queued (others 3) 0)).rx.length < 4 ∧ 4 ≤ (portNow (queued (others 4) 0)).rx.length := by decide

set_option maxRecDepth 20000 in
theorem test_witness_GoodFramesPassEveryCheck :
    (frameInput .consoleB (frameOf 2#8 [4#8, 50#8])).isSome = true ∧
    (frameInput .supervisor (frameOf 59#8 [])).isSome = true ∧
    (frameInput .consoleB (frameOf 60#8 [])).isSome = false ∧
    (frameInput .consoleB (frameOf 0#8 [])).isSome = false ∧
    (frameInput .consoleB (frameOf 2#8 [4#8])).isSome = false := by decide

theorem test_witness_GoodFramesPassEveryCheck_lengths :
    lengthPossible 1 16 ∧ ¬ lengthPossible 1 15 ∧ ¬ lengthPossible 0 0 ∧ ¬ lengthPossible 60 0 ∧
    lengthPossible 12 17 ∧ ¬ lengthPossible 12 16 ∧ lengthPossible 14 7 ∧ lengthPossible 14 8 ∧
    ¬ lengthPossible 14 6 ∧ lengthPossible 43 51 ∧ ¬ lengthPossible 43 57 ∧ lengthPossible 44 6 ∧
    lengthPossible 59 0 := by simp [lengthPossible, payloadLengths]

/-- Deflections at both ends of two octets. -/
def ends : PerAxis Int := { PerAxis.fill (-32768) with swing := 32767, zoom := -1 }

set_option maxRecDepth 20000 in
theorem test_witness_GoodFramesPassEveryCheck_joy :
    (∀ a, -32768 ≤ ends.get a ∧ ends.get a ≤ 32767) ∧
    frameInput .consoleA (frameOf 1#8 [128#8, 0#8, 127#8, 255#8, 128#8, 0#8, 128#8, 0#8, 128#8, 0#8, 128#8, 0#8,
      128#8, 0#8, 255#8, 255#8]) = some (.joy ends) := by
  refine ⟨fun a => ?_, by decide⟩
  cases a <;> decide

/-- A request that its port reads as the octets that 11.7.2 gives its arguments. -/
def carried (m : Master) (i : Instr) : Prop :=
  requestHeader i = some (from' m) ∧ i.wf = true ∧ listsAgree i ∧
    (argumentOctets (List.replicate 12 9#8) i).length ≤ 120

/-- A keyframe argument for all eight axes. -/
def wholeKeyframe : KeyframeArg :=
  { targets := [-8388608, 8388607, 0, 1, -1, 2, -2, 3], duration := 65535, shape := 255, gate := 255 }

set_option maxRecDepth 20000 in
theorem test_witness_GoodFramesPassEveryCheck_requests :
    carried .consoleA (.storePreset hA 15 15 0xFF#8 1 [65#8] [wholeKeyframe, wholeKeyframe, wholeKeyframe]) ∧
    carried .consoleB (.appendKeyframe hB 0 0 (.explicit (List.replicate 28 (7, -8388608)) 65535 2 1)) ∧
    carried .consoleA (.appendKeyframe hA 0 0 (.capture 0 0 0)) ∧ carried .supervisor (.restart hS) := by
  unfold carried listsAgree; decide

/-- Numbers stand in their octets high octet first, signed ones in two's complement. -/
theorem test_argumentOctets :
    argumentOctets [] (.setCoupling hS 3 1 7 0 (-2)) = [3#8, 1#8, 7#8, 0#8, 255#8, 254#8] ∧
    argumentOctets [] (.speed hA 5 258) = [5#8, 1#8, 2#8] ∧
    argumentOctets [] (.setTimecode hS ⟨⟨2, 3⟩, ⟨5, 9⟩, ⟨5, 8⟩, ⟨2, 4⟩⟩) = [0x23#8, 0x59#8, 0x58#8, 0x24#8] := by
  decide

theorem test_witness_GoodFramesPassEveryCheck_lists :
    (List.replicate 12 0#8).length = 12 ∧ (List.replicate 115 0#8).length ≤ 115 ∧
    (List.replicate 115 0#8).length - 12 = 103 ∧ 103 % (3 * axisCount 4#8 + 4) ≠ 0 ∧ 12 < (13#8).toNat ∧
    lengthPossible 14 ([2#8, 0#8, 0#8, 0#8, 0#8].length + 2) ∧
    ∀ k : AppendArg, k ≠ .unreadable →
      [2#8, 0#8, 0#8, 0#8, 0#8] ≠ (appendedFields k).flatMap fun f => numberOctets f.1 f.2 := by
  refine ⟨rfl, by decide, rfl, by decide, by decide, by simp [lengthPossible], fun k hk e => ?_⟩
  cases k with
  | unreadable => exact hk rfl
  | explicit | capture => exact absurd (List.cons.inj e).1 (by decide)

theorem test_witness_SealedFramesOpenToThemselves :
    (RawFrame.mk 1#8 0#8 (List.replicate 120 165#8)).payload.length ≤ 120 ∧
    (RawFrame.mk 1#8 0#8 []).payload.length ≤ 120 := by decide

theorem test_witness_FramesLeaveAndNoticesJoinTheQueue :
    Port.reset.link = .closed ∧ noticesHeld (frames 7 ++ []) < 4 ∧ (frames 7).length < 8 ∧ 8 ≤ (frames 8).length ∧
    4 ≤ noticesHeld (List.replicate 4 (.notice .saveDone)) ∧ noticesHeld (List.replicate 3 (.notice .saveDone)) < 4 := by
  decide

theorem test_witness_PortRequestsReportAndCount :
    taken (.setReport hA 0) live live ∧ taken (.setReport hA 1) live live ∧ taken (.setReport hA 255) live live ∧
    taken (.setReport hA 256) live live ∧ taken (.status hA) live live := ⟨rfl, rfl, rfl, rfl, rfl⟩

/-! ## Reading -/

theorem test_witness_ReadingsChangeNothing_whole :
    taken (.queryViews hA) live live ∧ taken (.queryCache hA) live live ∧ taken (.queryCoupling hA) live live ∧
    taken (.queryTimecode hA) live live ∧ taken (.queryBus hA) live live ∧ taken (.queryFaults hA) live live :=
  ⟨rfl, rfl, rfl, rfl, rfl, rfl⟩

theorem test_witness_ReadingsChangeNothing_byArgument :
    taken (.queryLimits hA 0) live live ∧ 0 = Axis.track.number ∧ taken (.queryLimits hA 7) live live ∧
    7 = Axis.zoom.number ∧ taken (.queryLimits hA 8) live live ∧
    taken (.queryJoystick hA 1) live live ∧ 1 = masterNumber .consoleA ∧ 3 = masterNumber .supervisor ∧
    taken (.queryJoystick hA 0) live live ∧ taken (.queryJoystick hA 4) live live ∧
    taken (.queryDirectory hA 3) live live ∧ taken (.queryDirectory hA 4) live live ∧
    taken (.queryCueList hA 31) live live ∧ taken (.queryCueList hA 32) live live :=
  ⟨rfl, rfl, rfl, rfl, rfl, rfl, rfl, rfl, rfl, rfl, rfl, rfl, rfl, rfl⟩

/-- READY with ZOOM not fitted. -/
def sevenFitted (s : State) : State := { s with settings := { s.settings with fitted := 127#8 } }

/-- The three cases of an axis set that requests begin with: an axis not fitted, no axis, and one that passes. -/
theorem test_witness_axisSets :
    128#8 &&& ~~~(sevenFitted live).settings.fitted ≠ 0#8 ∧
    (64#8 &&& ~~~(sevenFitted live).settings.fitted = 0#8 ∧ (64#8 : AxisSet) ≠ 0#8) ∧
    axesPass live 255#8 := by unfold axesPass; decide

theorem test_witness_ReadingsChangeNothing_authority :
    taken (.queryAuthority hA 128#8) (sevenFitted live) (sevenFitted live) ∧
    taken (.queryAuthority hA 0#8) live live ∧ taken (.queryAuthority hA 255#8) live live := ⟨rfl, rfl, rfl⟩

theorem test_witness_ItemReadingsShowWholeItems :
    taken (.queryQueue hA) live live ∧ taken (.queryZones hA) live live ∧
    taken (.queryBlend hA 128#8) (sevenFitted live) (sevenFitted live) ∧ taken (.queryBlend hA 0#8) live live ∧
    taken (.queryBlend hA 255#8) live live := ⟨rfl, rfl, rfl, rfl, rfl⟩

/-! ## Channels, limiter and zones -/

theorem test_witness_SetFittedReplacesTheFittedSet_refused :
    taken (.setFitted hS 0#8) driving driving ∧ actsAsSupervisor driving .supervisor = true ∧
    driving.bus.state = .running ∧
    taken (.setFitted hS 254#8) (ownedBy' .consoleA live) (ownedBy' .consoleA live) ∧
    (leavesFitted (ownedBy' .consoleA live) 254#8 .track ∧ ownerOf (ownedBy' .consoleA live) .track ≠ none) ∧
    (leavesFitted (moving [move 1 .queued] live) 251#8 .lift ∧
      ∃ m ∈ (moving [move 1 .queued] live).queue, AxisSet.has m.axes .lift = true) :=
  ⟨rfl, rfl, rfl, rfl, by unfold leavesFitted; decide, by unfold leavesFitted; decide⟩

theorem test_witness_SetFittedReplacesTheFittedSet_accepted :
    taken (.setFitted hS 254#8) live live ∧ actsAsSupervisor live .supervisor = true ∧ live.bus.state = .stopped ∧
    ¬ ∃ a, leavesFitted live 254#8 a ∧
      (ownerOf live a ≠ none ∨ (live.authority.get a).waiting ≠ [] ∨ ∃ m ∈ live.queue, AxisSet.has m.axes a = true) := by
  refine ⟨rfl, rfl, rfl, ?_⟩
  rintro ⟨a, -, h | h | ⟨m, h, -⟩⟩
  · cases a <;> exact h rfl
  · cases a <;> exact h rfl
  · cases h

/-- The least and the greatest limit settings. -/
def leastLimits : Limits := ⟨-8388608, -8388607, 1, 1, 0, 0, 1⟩
/-- The greatest limit settings. -/
def greatestLimits : Limits := ⟨8388606, 8388607, 65535, 65535, 1048575, 1048575, 255⟩

/-- SET LIMITS from the supervisor. -/
def setLimitsOf (n : Nat) (l : Limits) : Instr :=
  .setLimits hS n l.softMin l.softMax l.vmax l.amax l.trimRange l.followingLimit l.followingPersistence

theorem test_witness_SetLimitsReplacesTheSettings :
    (taken (setLimitsOf 8 leastLimits) live live ∧ actsAsSupervisor live .supervisor = true) ∧
    (taken (setLimitsOf 7 leastLimits) (sevenFitted live) (sevenFitted live) ∧
      AxisSet.has (sevenFitted live).settings.fitted .zoom = false) ∧
    (taken (setLimitsOf 7 leastLimits) live live ∧ limitRanges leastLimits ∧ isEnabled live .zoom = false) ∧
    (limitRanges greatestLimits ∧ ¬ limitRanges { leastLimits with softMax := -8388608 } ∧
      ¬ limitRanges { greatestLimits with trimRange := 1048576 }) ∧
    (taken (setLimitsOf 0 leastLimits) driving driving ∧ isEnabled driving .track = true ∧
      ¬ (leastLimits.softMin ≤ d1Of driving .track ∧ d1Of driving .track ≤ leastLimits.softMax)) ∧
    (isEnabled driving .track = true ∧ limitRanges { leastLimits with softMin := 0, softMax := 1 } ∧
      (0 ≤ d1Of driving .track ∧ d1Of driving .track ≤ 1)) :=
  ⟨⟨rfl, rfl⟩, ⟨rfl, rfl⟩, ⟨rfl, by unfold limitRanges; decide, rfl⟩, by unfold limitRanges; decide,
    ⟨rfl, by decide⟩, by unfold limitRanges; decide⟩

theorem test_witness_SetZoneRewritesTheZone :
    (taken (.setZone hS 7 1 129#8 []) (sevenFitted live) (sevenFitted live) ∧
      129#8 &&& ~~~(sevenFitted live).settings.fitted ≠ 0#8) ∧
    (taken (.setZone hS 8 1 3#8 [(0, 0), (0, 0)]) live live ∧ ¬ zoneArguments 8 1 3#8 [(0, 0), (0, 0)]) ∧
    (taken (.setZone hS 7 1 3#8 [(0, 0), (0, 0)]) live live ∧ 3#8 &&& ~~~live.settings.fitted = 0#8 ∧
      zoneArguments 7 1 3#8 [(0, 0), (0, 0)]) ∧
    zoneArguments 0 0 193#8 [(-8388608, 8388607), (0, 0), (1, 2)] :=
  ⟨⟨rfl, by decide⟩, ⟨rfl, by unfold zoneArguments; decide⟩, ⟨rfl, by decide, by unfold zoneArguments; decide⟩,
    by unfold zoneArguments; decide⟩

theorem test_witness_LimiterClampsInFourSteps :
    liftLimits.softMin ≤ (50000 : Int) ∧ (50000 : Int) ≤ liftLimits.softMax ∧ liftLimits.softMin ≤ liftLimits.softMax ∧
    live.clamped.get .lift = false ∧ ({ live with clamped := PerAxis.fill true }).clamped.get .lift = true := by decide

/-- Candidates of LIFT and TILT. -/
def candidatesAt (lift tilt : Int) : ZonePass :=
  { candidates := { PerAxis.fill 0 with lift := lift, tilt := tilt }, entered := [] }

/-- The candidates of the axes of zone 2 of 1.8 that the zone check replaces: both bounds are inside. -/
theorem test_witness_ZoneCheckReplacesAndRaises :
    ((zoned true).settings.zones[2].enabled = true ∧ (zoned true).armed[2] = true ∧
      ∀ a, AxisSet.has (zoned true).settings.zones[2].axes a = true → isEnabled (zoned true) a = true ∧
        ((zoned true).settings.zones[2].bounds.get a).lo ≤ (candidatesAt 10000 (-5000)).candidates.get a ∧
        (candidatesAt 10000 (-5000)).candidates.get a ≤ ((zoned true).settings.zones[2].bounds.get a).hi) ∧
    ((zoned false).armed[2] = false ∧ (zoned true).settings.zones[0].enabled = false ∧
      ((zoned true).settings.zones[2].bounds.get .lift).hi < (candidatesAt 10001 0).candidates.get .lift) ∧
    (AxisSet.has (coupled 0).settings.zones[0].axes .track = true ∧ isEnabled (coupled 0) .track = false) ∧
    (AxisSet.has AxisSet.full .lift = true ∧ AxisSet.has 0#8 .lift = false) := by
  refine ⟨⟨rfl, rfl, fun a h => ?_⟩, by decide, by decide, by decide⟩
  cases a <;> revert h <;> decide

theorem test_witness_FrameComputationWritesLawfulDemands :
    (AxisSet.has live.settings.fitted .lift = true ∧ isEnabled live .lift = false) ∧
    (AxisSet.has driving.settings.fitted .lift = true ∧ isEnabled driving .lift = true ∧ demandLawful driving .lift) ∧
    AxisSet.has (sevenFitted live).settings.fitted .zoom = false ∧
    ((zoned false).settings.zones[2].enabled = true ∧
      AxisSet.has (zoned false).settings.zones[2].axes .lift = true ∧
      ((zoned false).settings.zones[2].bounds.get .lift).hi < d1Of (frameComputation (zoned false)).state .lift) := by
  unfold demandLawful; decide

/-- A handoff at a weight. -/
def handing (w : Nat) : Blend := { Blend.reset with mode := .handoff, weight := w, step := 64 }

/-- Stage 2's table has a case for each mode, and the handoff completes at weight 256. -/
theorem test_witness_FrameComputationWritesLawfulDemands_stageTwo :
    (driving.queue.map Move.id).Nodup ∧ AxisSet.has (drivenSet driving) .lift = true ∧
    AxisSet.has (drivenSet live) .lift = false ∧ isDriven driving .lift ∧ Blend.reset.mode = .hold ∧
    (min 256 ((handing 128).weight + (handing 128).step) < 256 ∧
      min 256 ((handing 192).weight + (handing 192).step) = 256) ∧
    (∃ bl, stageTwoTable 40 15 (-7) 100 { Blend.reset with mode := .trim, trim := -98, preset := 5 } bl ∧ bl.base = -95) := by
  refine ⟨by decide, rfl, rfl, ⟨rfl, rfl⟩, rfl, by decide,
    { Blend.reset with mode := .trim, trim := -100, preset := 5, base := -95 }, ?_, rfl⟩
  unfold stageTwoTable; decide

/-- A part in the safe stop with the demand of LIFT moving or at rest, one STOPPING move, and a report countdown. -/
def stoppingAt (d1 : Int) (countdown : Nat) : State :=
  withPort (fun p => { p with interval := some 5, countdown := countdown })
    { driving with
      queue := [{ id := 1, requester := .consoleA, record := 0, axes := 4#8, state := .stopping, cue := .now
                  satisfied := true, goPending := false, speed := 100, keyframe := none, segment := none
                  stopOutcome := some .fault }]
      demand := { PerAxis.fill ⟨0, 0⟩ with lift := ⟨d1, 0⟩ }
      faults := { FaultUnit.reset with safeStop := .stopping, stopTimer := some 3000 } }

/-- A zone arms with a D1 outside its bounds, and not with its D1 inside, nor while it is disabled. -/
theorem test_witness_armZones :
    (armZones { zoned false with demand := { PerAxis.fill ⟨0, 0⟩ with lift := ⟨10001, 0⟩ } }).armed[2] = true ∧
    (armZones { zoned false with demand := { PerAxis.fill ⟨0, 0⟩ with lift := ⟨10000, 0⟩ } }).armed[2] = false ∧
    (armZones { live with demand := PerAxis.fill ⟨1, 0⟩ }).armed[0] = false := by decide

theorem test_witness_RestTestsAndReportsFollowStageSix :
    ((stoppingAt 0 1).faults.safeStop = .stopping ∧
      ∀ a, isDriven (stoppingAt 0 1) a → ((stoppingAt 0 1).demand.get a).d1 = ((stoppingAt 0 1).demand.get a).d2) ∧
    (isDriven (stoppingAt 9 1) .lift ∧
      ((stoppingAt 9 1).demand.get .lift).d1 ≠ ((stoppingAt 9 1).demand.get .lift).d2) ∧
    (restTest (stoppingAt 0 1)).state.queue = [] ∧ (restTest (stoppingAt 9 1)).state.queue.length = 1 ∧
    (live.ports.get .consoleA).interval = none ∧ ((stoppingAt 0 1).ports.get .consoleA).interval = some 5 ∧
    (1 < ((stoppingAt 0 2).ports.get .consoleA).countdown ∧ ((stoppingAt 0 1).ports.get .consoleA).countdown ≤ 1) := by
  refine ⟨⟨rfl, fun a _ => by cases a <;> rfl⟩, ⟨⟨rfl, rfl⟩, by decide⟩, by decide, by decide, rfl, rfl,
    by decide, by decide⟩

/-! ## Authority -/

/-- READY with LIFT under one record. -/
def liftUnder (r : Authority) : State := { live with authority := { PerAxis.fill Authority.reset with lift := r } }

/-- Console A owns LIFT and some wait for it. -/
def waited (l : List WaitEntry) : State := liftUnder ⟨some .consoleA, false, l⟩

/-- Console A owns LIFT and yields it. -/
def yielded : State := liftUnder ⟨some .consoleA, true, []⟩

theorem test_witness_AuthorityRequestsJudgeEachAxis_claim :
    (taken (.claim hB 4#8 0) live live ∧ axesPass live 4#8 ∧ (live.authority.get .lift).owner = none) ∧
    (taken (.claim hA 4#8 255) (waited []) (waited []) ∧ ((waited []).authority.get .lift).owner = some .consoleA) ∧
    (taken (.claim hB 4#8 0) yielded yielded ∧ (yielded.authority.get .lift).yielding = true) ∧
    (taken (.claim hB 4#8 255) (waited [⟨.consoleB, 5000⟩]) (waited [⟨.consoleB, 5000⟩]) ∧
      ((waited [⟨.consoleB, 5000⟩]).authority.get .lift).waiting[0]? = some ⟨.consoleB, 5000⟩) ∧
    (taken (.claim hS 4#8 255) (waited [⟨.consoleB, 5000⟩]) (waited [⟨.consoleB, 5000⟩]) ∧
      ∀ e ∈ ((waited [⟨.consoleB, 5000⟩]).authority.get .lift).waiting, e.waiter ≠ Master.supervisor) :=
  ⟨⟨rfl, by unfold axesPass; decide, rfl⟩, ⟨rfl, rfl⟩, ⟨rfl, rfl⟩, ⟨rfl, rfl⟩, ⟨rfl, by decide⟩⟩

/-- Console A has gone stale, or has not. -/
def withStale (v : StaleState) (s : State) : State :=
  { s with joysticks := { s.joysticks with consoleA := { s.joysticks.consoleA with arrival := some 0, stale := v } } }

theorem test_witness_AuthorityRequestsJudgeEachAxis_others :
    (taken (.release hB 4#8) (waited []) (waited []) ∧ axesPass (waited []) 4#8 ∧
      ((waited []).authority.get .lift).owner ≠ some .consoleB) ∧
    (taken (.release hA 4#8) (waited []) (waited []) ∧ ((waited []).authority.get .lift).waiting = []) ∧
    (taken (.release hA 4#8) (contested 0) (contested 0) ∧
      ((contested 0).authority.get .lift).waiting = [⟨.consoleB, 15000⟩]) ∧
    (taken (.yield hA 4#8 0) (waited []) (waited []) ∧ taken (.yield hA 4#8 1) (waited []) (waited []) ∧
      taken (.yield hA 4#8 1) (contested 0) (contested 0)) ∧
    (taken (.seize hB 4#8) live live ∧ ownerOf live .lift = none) ∧
    (taken (.seize hA 4#8) (waited []) (waited []) ∧ ownerOf (waited []) .lift = some .consoleA) ∧
    (taken (.seize hB 4#8) (withStale .stale (waited [])) (withStale .stale (waited [])) ∧
      ((withStale .stale (waited [])).joysticks.get .consoleA).stale = .stale) ∧
    (taken (.seize hB 4#8) (withStale .fresh (waited [])) (withStale .fresh (waited [])) ∧
      ((withStale .fresh (waited [])).joysticks.get .consoleA).stale = .fresh) :=
  ⟨⟨rfl, by unfold axesPass; decide, by decide⟩, ⟨rfl, rfl⟩, ⟨rfl, rfl⟩, ⟨rfl, rfl, rfl⟩, ⟨rfl, rfl⟩, ⟨rfl, rfl⟩,
    ⟨rfl, rfl⟩, ⟨rfl, rfl⟩⟩

theorem test_witness_WithdrawWaitRemovesTheEntry :
    (taken (.withdrawWait hB 4#8) (contested 0) (contested 0) ∧ axesPass (contested 0) 4#8 ∧
      ownershipLaw (contested 0) ∧
      ∃ e ∈ ((contested 0).authority.get .lift).waiting, e.waiter = Master.consoleB) ∧
    (taken (.withdrawWait hS 4#8) (contested 0) (contested 0) ∧
      ∀ e ∈ ((contested 0).authority.get .lift).waiting, e.waiter ≠ Master.supervisor) :=
  ⟨⟨rfl, by unfold axesPass; decide, (fun _ h => nomatch h), by decide⟩, rfl, by decide⟩

theorem test_witness_OwnershipChangesHoldAndWithdraw :
    changesOwners (.release hA 4#8) = true ∧
    taken (.release hA 4#8) (moving [move 1 .running] (waited [])) (moving [move 1 .running] (waited [])) ∧
    authorityLaw (moving [move 1 .running] (waited [])) ∧
    (∀ m ∈ (moving [move 1 .running] (waited [])).queue, m.axes ≠ 0#8) := by
  refine ⟨rfl, rfl, fun a => ?_, by decide⟩
  cases a <;> exact ⟨by decide, by decide, by decide, by decide, by decide⟩

theorem test_witness_OwnershipChangesAreTold :
    ((Instr.release hA 4#8 = .release hA 4#8 ∧ taken (.release hA 4#8) (contested 0) (contested 0)) ∧
      axesPass (contested 0) 4#8 ∧ authorityLaw (contested 0) ∧ ((contested 0).queue.map Move.id).Nodup ∧
      Master.supervisor ∈ linksInUse (contested 0) ∧ Master.consoleB ∈ linksInUse (contested 0)) ∧
    (taken (.claim hB 4#8 255) yielded yielded ∧ taken (.yield hA 4#8 1) (contested 0) (contested 0) ∧
      taken (.seize hB 4#8) (withStale .stale (waited [])) (withStale .stale (waited []))) ∧
    (sent .supervisor (.yield hA 4#8 1) (contested 0) =
        [.notice (.granted 4#8 .consoleB), .notice (.taken 4#8 .consoleB)] ∧
      noticeBefore (.granted 4#8 .consoleB) (.taken 4#8 .consoleB) ∧
      noticeBefore (.taken 2#8 .consoleB) (.taken 4#8 .consoleA)) := by
  refine ⟨⟨⟨rfl, rfl⟩, by unfold axesPass; decide, fun a => ?_, by decide, by decide, by decide⟩, ⟨rfl, rfl, rfl⟩,
    by decide, trivial, by unfold noticeBefore; decide⟩
  cases a <;> exact ⟨by decide, by decide, by decide, by decide, by decide⟩

theorem test_witness_AuthorityRequestsJudgeEachAxis_refused :
    (∀ i ∈ [Instr.claim hA 128#8 0, .release hA 128#8, .yield hA 128#8 0, .seize hA 128#8, .withdrawWait hA 128#8],
      taken i (sevenFitted live) (sevenFitted live)) ∧
    (∀ i ∈ [Instr.claim hA 0#8 0, .release hA 0#8, .yield hA 0#8 0, .seize hA 0#8, .withdrawWait hA 0#8],
      taken i live live) ∧
    taken (.claim hA 4#8 256) live live ∧ taken (.yield hA 4#8 2) live live := by
  refine ⟨?_, ?_, rfl, rfl⟩ <;> simp only [List.forall_mem_cons] <;>
    exact ⟨rfl, rfl, rfl, rfl, rfl, (fun _ h => nomatch h)⟩

theorem test_witness_WaitsExpireTogether :
    (¬ ∃ d a, ∃ e ∈ ((contested 14999).authority.get a).waiting, e.waiter = Master.consoleB ∧ e.deadline = d ∧
      d ≤ (contested 14999).timebase.ms) ∧
    (∃ a, ∃ e ∈ ((elapse 0 (contested 15000)).authority.get a).waiting, e.waiter = Master.consoleB ∧
      e.deadline = 15000 ∧ 15000 ≤ (elapse 0 (contested 15000)).timebase.ms) := by
  refine ⟨?_, .lift, by decide⟩
  rintro ⟨d, a, e, he, -, rfl, hd⟩
  cases a <;> first
    | exact absurd he List.not_mem_nil
    | (rw [List.mem_singleton.1 he] at hd; exact absurd hd (by decide))

/-! ## Joystick -/

/-- Console A's last sample came at 0, the timebase stands at a time. -/
def sampled (ms : Nat) (v : StaleState) : State :=
  withStale v { live with timebase := { ms := ms, counts := 0 } }

theorem test_witness_SamplesArriveAndGoStale :
    (portNow State.reset).link = .closed ∧ (portNow live).link = .opened ∧
    (((elapse 0 (sampled 51 .fresh)).joysticks.get .consoleA).stale = .fresh ∧
      (elapse 0 (sampled 51 .fresh)).settings.staleLimits.get .consoleA = some 50 ∧
      50 < (elapse 0 (sampled 51 .fresh)).timebase.ms - 0) ∧
    ¬ 50 < (elapse 0 (sampled 50 .fresh)).timebase.ms - 0 := by decide

theorem test_witness_ShapedVelocityIsTheOwners :
    ((40 : Int) ≤ Profile.builtIn.deadband ∧ (Profile.builtIn.deadband : Int) < 41) ∧
    Profile.builtIn.deadband ≤ 511 ∧ Profile.builtIn.expo ≤ 256 ∧ Profile.builtIn.gain ≤ 65535 ∧
    ownerOf live .lift = none ∧ ownerOf (waited []) .lift = some .consoleA ∧
    ((withStale .stale (waited [])).joysticks.get .consoleA).stale = .stale ∧
    ((withStale .fresh (waited [])).joysticks.get .consoleA).stale = .fresh := by decide

theorem test_witness_JoystickSettingsAreReplaced_profile :
    (taken (.setProfile hA 2 7 0 0 0 0) live live ∧ actsAsSupervisor live .consoleA = false ∧
      2 = masterNumber .consoleB) ∧
    (taken (.setProfile hA 1 8 0 0 0 0) live live ∧ 1 = masterNumber .consoleA) ∧
    (taken (.setProfile hA 1 7 0 0 0 0) (sevenFitted live) (sevenFitted live) ∧
      AxisSet.has (sevenFitted live).settings.fitted .zoom = false) ∧
    taken (.setProfile hA 0 7 0 0 0 0) live live ∧
    taken (.setProfile hS 4 7 0 0 0 0) live live ∧
    (taken (.setProfile hS 1 7 512 256 65535 1) live live ∧ actsAsSupervisor live .supervisor = true) ∧
    taken (.setProfile hS 1 7 511 256 65535 1) live live :=
  ⟨⟨rfl, rfl, rfl⟩, ⟨rfl, rfl⟩, ⟨rfl, rfl⟩, rfl, rfl, ⟨rfl, rfl⟩, rfl⟩

theorem test_witness_JoystickSettingsAreReplaced_limit :
    taken (.setStaleLimit hA 3 50) live live ∧ taken (.setStaleLimit hA 1 4) live live ∧
    taken (.setStaleLimit hA 1 251) live live ∧ taken (.setStaleLimit hA 1 0) live live ∧
    taken (.setStaleLimit hS 4 50) live live ∧
    (taken (.setStaleLimit hA 1 5) (sampled 6 .fresh) (sampled 6 .fresh) ∧
      ((sampled 6 .fresh).joysticks.get .consoleA).stale = .fresh ∧ 5 < (sampled 6 .fresh).timebase.ms - 0) ∧
    (taken (.setStaleLimit hA 1 250) (sampled 250 .fresh) (sampled 250 .fresh) ∧
      ¬ 250 < (sampled 250 .fresh).timebase.ms - 0) ∧
    (taken (.setStaleLimit hA 1 250) (sampled 0 .stale) (sampled 0 .stale) ∧
      ((sampled 0 .stale).joysticks.get .consoleA).stale = .stale) ∧
    (taken (.setStaleLimit hS 3 0) live live ∧ (live.joysticks.get .supervisor).stale = .stale ∧
      3 = masterNumber .supervisor) :=
  ⟨rfl, rfl, rfl, rfl, rfl, ⟨rfl, rfl, by decide⟩, ⟨rfl, by decide⟩, ⟨rfl, rfl⟩, ⟨rfl, rfl, rfl⟩⟩

/-! ## Resolution and the store -/

/-- A view of Console A. -/
def viewing (v : View) (s : State) : State :=
  { s with settings := { s.settings with views := { s.settings.views with consoleA := v } } }

/-- Bank 0 of directory 0 with a target, and one valid entry in list 0. -/
def banked (t : BankTarget) : State :=
  { live with store :=
      { records := [], cues := [(1, { valid := true, locked := true, record := 9 })]
        banks := [(0, { locked := false, target := t })] } }

/-- Two cached entries. -/
def cached : State := { stored live with cache := [⟨0, 0, 0, 0, false⟩, ⟨0, 0, 1, 1, false⟩] }

theorem test_witness_ResolutionHitsOrWalks :
    ((viewing ⟨false, 0, 16, 0⟩ live).settings.views.get .consoleA).enabled = false ∧
    ((cached.settings.views.get .consoleA).enabled = true ∧
      cached.cache = [⟨0, 0, 0, 0, false⟩] ++ ⟨0, 0, 1, 1, false⟩ :: []) ∧
    ((live.settings.views.get .consoleA).length ≤ 16 ∧ 15 < (live.settings.views.get .consoleA).length) ∧
    (bankAt live 0 0).target = .empty ∧ (bankAt (banked (.list 0)) 0 0).target = .list 0 ∧
    (cueAt (banked (.list 0)) 0 0).valid = false ∧ (cueAt (banked (.list 0)) 0 1).valid = true ∧
    (bankAt (banked (.run 241 15)) 0 0).target = .run 241 15 ∧ 15 ≤ 15 ∧ 255 < 241 + 15 ∧ 240 + 15 ≤ 255 := by decide

theorem test_witness_PurgeRemovesTheScope :
    taken (.purge hA 0) cached cached ∧ (cached.settings.views.get .consoleA).directory = 0 ∧
    (taken (.purge hA 255) cached cached ∧ actsAsSupervisor cached .consoleA = false) ∧
    taken (.purge hS 255) cached cached ∧ taken (.purge hS 3) cached cached ∧ taken (.purge hS 4) cached cached :=
  ⟨rfl, rfl, ⟨rfl, rfl⟩, rfl, rfl, rfl⟩

/-- STORE PRESET of one keyframe of LIFT to cue address 0, 1. -/
def storeOf (d : Nat) : Instr := .storePreset hA 0 1 4#8 1 [65#8] [⟨[1000], d, 2, 1⟩]

/-- The state a resolution of address 0, 1 leaves, with its result. -/
def resolvedIn (s : State) : State := (resolve .consoleA 0 1 s).1

theorem test_witness_EditRequestsRefuseInOrder :
    editAddress (storeOf 60000) = some (hA, 0, 1) ∧ taken (storeOf 60000) (stored live) (stored live) ∧
    editArguments (stored live) (storeOf 60000) ∧ ¬ editArguments (stored live) (storeOf 60001) ∧
    ¬ editArguments (stored live) (storeOf 0) ∧
    resolve .consoleA 1 0 (stored live) = (stored live, .fault .bankEmpty) ∧
    resolve .consoleA 0 1 (stored live) = (resolvedIn (stored live), .found ⟨1, false⟩) ∧
    (∀ c ∈ editChecks .consoleA (resolvedIn (stored live)) ⟨1, false⟩, c.1) ∧
    editAddress (.capture hA 0 1 4#8 1 0) = some (hA, 0, 1) ∧
    editAddress (.appendKeyframe hA 0 1 .unreadable) = some (hA, 0, 1) ∧
    editAddress (.erasePreset hA 0 1) = some (hA, 0, 1) := by
  refine ⟨rfl, rfl, ?_, ?_, ?_, rfl, rfl, ?_, rfl, rfl, rfl⟩
  · unfold editArguments storeOf addressRange allFitted keyframeOctets positionRange softRange; decide
  · unfold editArguments storeOf addressRange allFitted keyframeOctets positionRange softRange; decide
  · unfold editArguments storeOf addressRange allFitted keyframeOctets positionRange softRange; decide
  · simp only [editChecks, List.forall_mem_cons]
    exact ⟨trivial, by unfold keysRefuse; decide, (fun _ h => nomatch h), rfl, (fun _ h => nomatch h)⟩

/-- The checks behind the resolution of address 0, 1 pass. -/
theorem test_witness_editChecks : ∀ c ∈ editChecks .consoleA (resolvedIn (stored live)) ⟨1, false⟩, c.1 := by
  simp only [editChecks, List.forall_mem_cons]
  exact ⟨trivial, by unfold keysRefuse; decide, (fun _ h => nomatch h), rfl, (fun _ h => nomatch h)⟩

/-- An edit request on address 0, 1 comes to stage 7 with record 1. -/
theorem editReaches_of {i : Instr} (hi : editAddress i = some (hA, 0, 1)) (ha : editArguments (stored live) i) :
    editReaches i hA (stored live) (resolvedIn (stored live)) 1 :=
  ⟨0, 1, ⟨1, false⟩, hi, ha, rfl, rfl, test_witness_editChecks⟩

theorem test_witness_storeLaw : storeLaw (stored live) ∧ storeLaw live ∧ storeLaw cached := by
  unfold storeLaw; decide

theorem test_witness_EditsWriteTheirRecord :
    (taken (storeOf 1) (stored live) (stored live) ∧
      editReaches (storeOf 1) hA (stored live) (resolvedIn (stored live)) 1) ∧
    (taken (.capture hA 0 1 4#8 60000 2) (stored live) (stored live) ∧
      editReaches (.capture hA 0 1 4#8 60000 2) hA (stored live) (resolvedIn (stored live)) 1) ∧
    (taken (.erasePreset hA 0 1) (stored live) (stored live) ∧
      editReaches (.erasePreset hA 0 1) hA (stored live) (resolvedIn (stored live)) 1) := by
  refine ⟨⟨rfl, editReaches_of rfl ?_⟩, ⟨rfl, editReaches_of rfl ?_⟩, ⟨rfl, editReaches_of rfl ?_⟩⟩
  · unfold editArguments storeOf addressRange allFitted keyframeOctets positionRange softRange; decide
  · unfold editArguments addressRange allFitted keyframeOctets; decide
  · unfold editArguments addressRange; decide

theorem test_witness_AppendAddsOneKeyframe :
    (taken (.appendKeyframe hA 0 1 (.explicit [(2, -5)] 1 0 0)) (stored live) (stored live) ∧
      editReaches (.appendKeyframe hA 0 1 (.explicit [(2, -5)] 1 0 0)) hA (stored live) (resolvedIn (stored live)) 1 ∧
      ∃ body, (recordAt (resolvedIn (stored live)) 1).body = some body ∧ body.keyframes.length < 8 ∧
        [((2 : Nat), (-5 : Int))].length = axisCount body.axes) ∧
    (taken (.appendKeyframe hA 0 1 (.capture 60000 2 1)) (stored live) (stored live) ∧
      editReaches (.appendKeyframe hA 0 1 (.capture 60000 2 1)) hA (stored live) (resolvedIn (stored live)) 1) := by
  refine ⟨⟨rfl, editReaches_of rfl ?_, _, rfl, by decide, by decide⟩, rfl, editReaches_of rfl ?_⟩
  · unfold editArguments addressRange keyframeOctets positionRange; decide
  · unfold editArguments addressRange keyframeOctets; decide

/-- Records are FREE: address 0, 1 resolves to one without a body. -/
theorem test_witness_recordFree :
    resolve .consoleA 0 1 (banked (.run 0 16)) = ((resolve .consoleA 0 1 (banked (.run 0 16))).1, .found ⟨1, false⟩) ∧
    (recordAt (resolve .consoleA 0 1 (banked (.run 0 16))).1 1).body = none := ⟨rfl, rfl⟩

theorem test_witness_QueryPresetShowsTheRecord :
    taken (.queryPreset hA 15 15 7) (stored live) (stored live) ∧ (addressRange 15 15 ∧ 7 < 8) ∧
    ¬ addressRange 16 0 ∧ taken (.queryPreset hA 0 1 8) (stored live) (stored live) ∧
    taken (.queryPreset hA 0 1 0) (stored live) (stored live) ∧
    resolve .consoleA 0 1 (stored live) = (resolvedIn (stored live), .found ⟨1, false⟩) :=
  ⟨rfl, by unfold addressRange; decide, by unfold addressRange; decide, rfl, rfl, rfl⟩

theorem test_witness_StructureRequestsRewriteOneEntry :
    (taken (.setBankEntry hS 3 15 2 1 [255, 16]) live live ∧ namesTarget 2 [255, 16] (.run 255 16) ∧
      namesTarget 1 [31] (.list 31) ∧ namesTarget 0 [] .empty) ∧
    (taken (.setCueEntry hS 31 15 1 1 255) live live ∧ taken (.setCueEntry hS 32 15 1 1 255) live live) ∧
    (taken (.setView hS 2 1 3 16 15) live live ∧ 2 + 1 = masterNumber .supervisor) ∧
    (taken (.setView hA 0 1 3 1 0) live live ∧ 0 + 1 = masterNumber .consoleA ∧
      0 = (live.settings.views.get .consoleA).key ∧ actsAsSupervisor live .consoleA = false) ∧
    taken (.setView hA 1 1 0 16 0) live live :=
  ⟨⟨rfl, Or.inr (Or.inr ⟨255, 16, rfl, rfl, by decide, by decide, by decide, rfl⟩),
      Or.inr (Or.inl ⟨31, rfl, rfl, by decide, rfl⟩), Or.inl ⟨rfl, rfl, rfl⟩⟩,
    ⟨rfl, rfl⟩, ⟨rfl, rfl⟩, ⟨rfl, rfl, rfl, rfl⟩, rfl⟩

/-! ## Moves -/

/-- Eight queued moves of one master on LIFT. -/
def eight : List Move := (List.range 8).map fun n => move (n + 1) .queued

/-- RECALL of address 0, 1 with a speed and a policy. -/
def recallAt (v pol : Nat) : Instr := recallOf 0 1 0 v 0 0 pol

theorem test_witness_RecallChecksThenQueues :
    (taken (recallAt 400 0) (stored driving) (stored driving) ∧ queueLaw (stored driving)) ∧
    resolve .consoleA 0 1 (stored driving) = (resolvedIn (stored driving), .found ⟨1, false⟩) ∧
    (recordAt (resolvedIn (stored driving)) 1).body ≠ none ∧
    (∀ a, AxisSet.has 4#8 a = true → ownerOf (resolvedIn (stored driving)) a = some .consoleA) ∧
    ((resolvedIn (stored driving)).faults.safeStop = .normal ∧ (resolvedIn (stored driving)).bus.state = .running) ∧
    (taken (recallAt 25 1) (stored (moving eight driving)) (stored (moving eight driving)) ∧
      queueLaw (stored (moving eight driving)) ∧
      ((stored (moving eight driving)).queue.filter fun m => !(m.axes &&& 4#8 != 0#8)).length < 8 ∧
      ¬ (stored (moving eight driving)).queue.length < 8) ∧
    taken (recallAt 24 0) (stored driving) (stored driving) ∧ taken (recallAt 401 0) (stored driving) (stored driving) := by
  refine ⟨⟨rfl, by unfold queueLaw; decide⟩, rfl, by decide, fun a h => ?_, ⟨rfl, rfl⟩,
    ⟨rfl, by unfold queueLaw; decide, by decide, by decide⟩, rfl, rfl⟩
  cases a <;> rfl

/-- A state with one move of Console A. -/
def oneMove (m : Move) : State := moving [m] driving

theorem test_witness_RequestsActOnOneMove :
    (taken (.go hA 2) (oneMove (move 1 .running)) (oneMove (move 1 .running)) ∧
      ∀ m ∈ (oneMove (move 1 .running)).queue, m.id ≠ 2) ∧
    ((oneMove (move 1 .running)).queue.map Move.id).Nodup ∧
    (taken (.go hA 1) (oneMove { move 1 .queued with cue := .go, satisfied := false })
      (oneMove { move 1 .queued with cue := .go, satisfied := false })) ∧
    (taken (.go hB 1) (oneMove (move 1 .running)) (oneMove (move 1 .running)) ∧
      actsAsSupervisor (oneMove (move 1 .running)) .consoleB = false) ∧
    taken (.go hA 1) (oneMove { move 1 .running with goPending := true })
      (oneMove { move 1 .running with goPending := true }) ∧
    taken (.speed hA 1 400) (oneMove (move 1 .running)) (oneMove (move 1 .running)) ∧
    taken (.speed hA 1 24) (oneMove (move 1 .running)) (oneMove (move 1 .running)) ∧
    taken (.abort hA 1) (oneMove (move 1 .stopping)) (oneMove (move 1 .stopping)) ∧
    taken (.abort hA 1) (oneMove (move 1 .queued)) (oneMove (move 1 .queued)) ∧
    taken (.abort hA 1) (oneMove (move 1 .gated)) (oneMove (move 1 .gated)) :=
  ⟨⟨rfl, by decide⟩, by decide, rfl, ⟨rfl, rfl⟩, rfl, rfl, rfl, rfl, rfl, rfl⟩

theorem test_witness_SegmentsRunFromStartToTarget :
    1 ≤ 25 ∧ 1 ≤ segmentLength 1 400 ∧ segmentLength 1 400 = 1 ∧ segmentLength 60000 25 = 240000 := by decide

/-- A segment of LIFT from 0 to 1,000 at e of 4. -/
def segmentAt (e : Nat) : Segment :=
  { shape := .linear, elapsed := e, length := 4
    paths := { PerAxis.fill none with lift := some { start := 0, target := 1000 } } }

/-- A move of Console A on LIFT in its first keyframe, at e of 4. -/
def running (e : Nat) : Move := { move 1 .running with keyframe := some 0, segment := some (segmentAt e) }

/-- A body of two keyframes on LIFT, the second with a gate or without. -/
def twoFrames (gate : Bool) : RecordBody :=
  { axes := 4#8, keyframes := [keyframe, { keyframe with gate := gate }], label := none }

/-- Record 0 with a second keyframe, with a gate or without. -/
def twoKeyframes (gate : Bool) (s : State) : State :=
  { s with store :=
      { records := [(0, { record with body := some (twoFrames gate) })], cues := [], banks := [] } }

theorem test_witness_PresetStepTakesAndStartsMoves :
    ((move 1 .queued).state = .queued ∧ (move 1 .gated).state = .gated ∧ (move 1 .gated).goPending = false) ∧
    ((running 3).segment = some (segmentAt 3) ∧ (segmentAt 3).elapsed < (segmentAt 3).length ∧
      (segmentAt 4).length ≤ (segmentAt 4).elapsed) ∧
    (∃ body, (recordAt (stored live) (running 4).record).body = some body ∧
      body.keyframes.length ≤ (running 4).keyframe.getD 0 + 1 ∧ body.keyframes[0]? = some keyframe ∧
      keyframe.gate = false) ∧
    (∃ body, (recordAt (twoKeyframes true live) (running 4).record).body = some body ∧
      body.keyframes[(running 4).keyframe.getD 0 + 1]? = some { keyframe with gate := true }) ∧
    (∃ body, (recordAt (twoKeyframes false live) (running 4).record).body = some body ∧
      body.keyframes[(running 4).keyframe.getD 0 + 1]? = some keyframe) ∧
    (AxisSet.has (move 1 .queued).axes .lift = true ∧ keyframe.targets.get .lift = some 1000) ∧
    ((move 1 .queued).satisfied = true ∧ (move 1 .queued).axes &&& 0#8 = 0#8 ∧
      ¬ (move 1 .queued).axes &&& 4#8 = 0#8) :=
  ⟨⟨rfl, rfl, rfl⟩, ⟨rfl, by decide, by decide⟩, ⟨_, rfl, by decide, rfl, rfl⟩, ⟨_, rfl, rfl⟩, ⟨_, rfl, rfl⟩,
    ⟨rfl, rfl⟩, rfl, by decide, by decide⟩

/-! ## Modes and coupling -/

/-- Every axis in a mode, with a queue. -/
def inMode (v : Mode) (q : List Move) : State :=
  { moving q driving with blend := PerAxis.fill { Blend.reset with mode := v } }

theorem test_witness_ModeRequestsFollowTheirTables :
    (taken (.setMode hA 4#8 0) (inMode .preset [move 1 .running]) (inMode .preset [move 1 .running]) ∧
      ((inMode .preset [move 1 .running]).queue.map Move.id).Nodup ∧
      (inMode .preset [move 1 .running]).faults.safeStop = .normal ∧ allFitted (inMode .preset []) 4#8 ∧
      ownerOf (inMode .preset []) .lift = some .consoleA) ∧
    (taken (.setMode hA 255#8 2) (inMode .preset []) (inMode .preset []) ∧
      taken (.setMode hA 255#8 2) (inMode .hold []) (inMode .hold []) ∧
      taken (.setMode hA 255#8 1) (inMode .live []) (inMode .live []) ∧
      taken (.setMode hA 255#8 3) (inMode .live []) (inMode .live [])) ∧
    (taken (.takeLive hA 4#8 1) (inMode .trim [move 1 .gated]) (inMode .trim [move 1 .gated]) ∧
      (∃ m ∈ (inMode .trim [move 1 .gated]).queue, (m.state = .running ∨ m.state = .gated) ∧
        AxisSet.has m.axes .lift = true)) ∧
    (taken (.takeLive hA 4#8 4000) (inMode .handoff []) (inMode .handoff []) ∧
      taken (.takeLive hA 4#8 4001) (inMode .handoff []) (inMode .handoff []) ∧
      taken (.takeLive hA 4#8 0) (inMode .handoff []) (inMode .handoff []) ∧
      taken (.takeLive hA 4#8 1) (inMode .hold []) (inMode .hold [])) ∧
    (taken (.setMode hB 4#8 0) (inMode .hold []) (inMode .hold []) ∧ live.faults.safeStop ≠ .normal ∧
      taken (.setMode hA 4#8 0) live live) :=
  ⟨⟨rfl, by decide, rfl, by unfold allFitted; decide, rfl⟩, ⟨rfl, rfl, rfl, rfl⟩, ⟨rfl, by decide⟩,
    ⟨rfl, rfl, rfl, rfl⟩, ⟨rfl, by decide, rfl⟩⟩

/-- LIFT in LIVE as the target of the enabled entry 0. -/
def coupledLive : State :=
  { coupled 10100 with blend := { PerAxis.fill Blend.reset with lift := { Blend.reset with mode := .live } } }

theorem test_witness_SetCouplingAbsorbsTheOldTerm :
    (taken (.setCoupling hS 0 1 7 0 (-2048)) (sevenFitted live) (sevenFitted live) ∧
      AxisSet.has (sevenFitted live).settings.fitted .zoom = false ∧ Axis.zoom.number = 7) ∧
    (taken (.setCoupling hS 3 0 7 0 2047) coupledLive coupledLive ∧ actsAsSupervisor coupledLive .supervisor = true) ∧
    taken (.setCoupling hS 4 0 7 0 0) live live ∧ taken (.setCoupling hS 0 0 8 0 0) live live ∧
    taken (.setCoupling hS 0 0 1 1 0) live live ∧ taken (.setCoupling hS 0 0 0 1 2048) live live ∧
    (taken (.setCoupling hS 0 1 0 1 0) coupledLive coupledLive ∧ coupledLive.couplings[0].enabled = true ∧
      (coupledLive.blend.get coupledLive.couplings[0].target).mode = .live) :=
  ⟨⟨rfl, rfl, rfl⟩, ⟨rfl, rfl⟩, rfl, rfl, rfl, rfl, ⟨rfl, rfl, rfl⟩⟩

/-! ## Timecode and the bus -/

theorem test_witness_CounterArithmeticFollowsThePosition :
    timecodeValid .fps24 (tc 23 59 59 23) = true ∧ timecodeValid .fps25 (tc 23 59 59 24) = true ∧
    timecodeValid .fps30 (tc 23 59 59 29) = true ∧ timecodeValid .fps30 (tc 0 0 0 0) = true := by decide

/-- READY with a timecode unit and a queue. -/
def timed (u : TimecodeUnit) (q : List Move) : State := { moving q live with timecode := u }

/-- A genlock monitor in a lock state. -/
def monitor (l : LockState) (n p : Nat) : TimecodeUnit :=
  { TimecodeUnit.reset with lock := l, good := n, period := p, run := .running }

/-- A good-window test of the monitor's period as the statement reads it. -/
def inWindow (s : State) : Bool :=
  decide ((goodWindow (elapse 0 s).settings.rate).1 ≤ (elapse 0 s).timecode.period ∧
    (elapse 0 s).timecode.period ≤ (goodWindow (elapse 0 s).settings.rate).2)

theorem test_witness_PulsesDriveTheMonitor :
    (elapse 0 State.reset).startup.phase ≠ .ready ∧ (elapse 0 live).startup.phase = .ready ∧
    (elapse 0 live).timecode.lock = .noReference ∧
    (inWindow (timed (monitor .locking 2 392000) []) = true ∧ inWindow (timed (monitor .locking 3 408000) []) = true ∧
      inWindow (timed (monitor .locking 0 391999) []) = false ∧ inWindow (timed (monitor .locked 4 408001) []) = false) ∧
    (inWindow (timed (monitor .locked 4 400000) []) = true ∧
      (elapse 0 (timed (monitor .locked 4 400000) [])).timecode.run = .running) ∧
    (lossCounts (elapse 0 (timed (monitor .locked 4 600000) [])).settings.rate ≤
        (elapse 0 (timed (monitor .locked 4 600000) [])).timecode.period ∧
      ¬ lossCounts (elapse 0 (timed (monitor .locked 4 599999) [])).settings.rate ≤
        (elapse 0 (timed (monitor .locked 4 599999) [])).timecode.period) := by decide

theorem test_witness_TimecodeRequestsRunWriteAndMiss_run :
    (taken (.tcRun hS) live live ∧ taken (.tcStop hS) live live ∧ actsAsSupervisor live .supervisor = true) ∧
    (taken (.tcRun hA) live live ∧ taken (.tcStop hA) live live ∧ actsAsSupervisor live .consoleA = false) :=
  ⟨⟨rfl, rfl, rfl⟩, rfl, rfl, rfl⟩

theorem test_witness_TimecodeRequestsRunWriteAndMiss_counter :
    actsAsSupervisor live .supervisor = true ∧
    (taken (.setTimecode hS (tc 23 59 59 24)) live live ∧ timecodeValid live.settings.rate (tc 23 59 59 24) = true) ∧
    (taken (.setTimecode hS (tc 0 0 0 25)) live live ∧ timecodeValid live.settings.rate (tc 0 0 0 25) = false) ∧
    taken (.offsetTimecode hS 0 (tc 0 0 0 1)) live live ∧ taken (.offsetTimecode hS 1 (tc 0 0 0 1)) live live ∧
    taken (.offsetTimecode hS 2 (tc 0 0 0 1)) live live ∧
    (taken (.setRate hS 24) live live ∧ perSecond .fps24 = 24 ∧ live.timecode.run = .stopped) ∧
    (taken (.setRate hS 25) live live ∧ perSecond .fps25 = 25 ∧ live.settings.rate = .fps25) ∧
    taken (.setRate hS 26) live live :=
  ⟨rfl, ⟨rfl, rfl⟩, ⟨rfl, rfl⟩, rfl, rfl, rfl, ⟨rfl, rfl, rfl⟩, ⟨rfl, rfl, rfl⟩, rfl⟩

/-- The bus RUNNING with every drive released. -/
def busy : State := onBus .released live

theorem test_witness_BusRequestsConfigureStartAndStop :
    (taken (.setBusConfig hS 1 4000 (List.replicate 16 0)) live live ∧
      (∀ o ∈ List.replicate 16 0, ∃ x, slotNamed o x) ∧ slotNamed 23 (.demand .zoom) ∧ slotNamed 39 (.feedback .zoom) ∧ live.bus.state = .stopped) ∧
    (taken (.setBusConfig hS 0 249 (List.replicate 16 0)) live live ∧
      taken (.setBusConfig hS 0 250 (List.replicate 16 0)) busy busy ∧ busy.bus.state = .running) ∧
    (taken (.busStart hS) live live ∧ ∀ a, slotsHolding live (.demand a) = 1 ∧ slotsHolding live (.feedback a) = 1) ∧
    (taken (.busStart hS) (sevenFitted live) (sevenFitted live) ∧ slotsHolding (sevenFitted live) (.demand .zoom) = 1) ∧
    (taken (.busStop hS) live live ∧ taken (.busStop hS) busy busy ∧
      ∀ a, AxisSet.has busy.settings.fitted a = true → isEnabled busy a = false) ∧
    (taken (.busStop hS) driving driving ∧ isEnabled driving .lift = true) := by
  refine ⟨⟨rfl, fun o h => ⟨.unused, .inl ⟨by rw [List.eq_of_mem_replicate h]; decide, rfl⟩⟩,
      .inr ⟨.zoom, .inl ⟨rfl, rfl⟩⟩, .inr ⟨.zoom, .inr ⟨rfl, rfl⟩⟩, rfl⟩, ⟨rfl, rfl, rfl⟩, ⟨rfl, fun a => ?_⟩, ⟨rfl, by decide⟩, ⟨rfl, rfl, fun a _ => ?_⟩,
    ⟨rfl, rfl⟩⟩
  · cases a <;> decide
  · cases a <;> rfl

theorem test_witness_EnableAndDisableWriteTheEnables :
    (taken (.enable hA 4#8) (ownedBy' .consoleA busy) (ownedBy' .consoleA busy) ∧
      allFitted (ownedBy' .consoleA busy) 4#8 ∧ (ownedBy' .consoleA busy).faults.safeStop ≠ .stopping ∧
      softRange (ownedBy' .consoleA busy) .lift ((ownedBy' .consoleA busy).bus.drives.get .lift).feedback) ∧
    (taken (.enable hB 4#8) (ownedBy' .consoleA busy) (ownedBy' .consoleA busy) ∧
      taken (.enable hA 4#8) driving driving ∧
      taken (.enable hA 4#8) (ownedBy' .consoleA live) (ownedBy' .consoleA live) ∧ live.bus.latch = true) ∧
    (taken (.disable hA 4#8) driving driving ∧ ownerOf driving .lift = some .consoleA ∧
      taken (.disable hB 4#8) driving driving) :=
  ⟨⟨rfl, by unfold allFitted; decide, by decide, by unfold softRange; decide⟩, ⟨rfl, rfl, rfl, rfl⟩, rfl, rfl, rfl⟩

/-- A follower on a running bus whose sync counter stands at a count. -/
def following (y : SyncState) (n : Nat) : State :=
  { busy with
    settings := { Settings.builtIn with role := .follower }
    bus := { busy.bus with sync := y, syncCounter := n } }

theorem test_witness_FrameSourcesFollowRoleAndSync :
    ((elapse 0 busy).bus.state = .running ∧ (elapse 0 busy).settings.role = .frameMaster) ∧
    (elapse 0 live).bus.state = .stopped ∧ (elapse 0 busy).bus.sync = .idle ∧
    (elapse 0 (following .waiting 0)).bus.sync ≠ .idle ∧
    15 * (elapse 0 (following .present 15000)).settings.period ≤ (elapse 0 (following .present 15000)).bus.syncCounter ∧
    ¬ 15 * (elapse 0 (following .present 14999)).settings.period ≤
      (elapse 0 (following .present 14999)).bus.syncCounter := by decide

/-- A frame in which every slot carries one feedback word. -/
def allWords (w : Option FeedbackWord) : SlotWords := Vector.replicate 16 w

/-- A drive one frame short of silence, one short of the persistence, or in FAULT. -/
def withDrive (d : Drive) : State := setDrive .lift d driving

theorem test_witness_FramesSendReceiveAndCheck :
    (AxisSet.has driving.settings.fitted .lift = true ∧ driving.settings.slots[4] = .demand .lift ∧
      driving.settings.slots[5] = .feedback .lift ∧ AxisSet.has (sevenFitted driving).settings.fitted .zoom = false) ∧
    (∀ k ∈ slotNumbers, driving.settings.slots[k] = .feedback .lift → k = 5) ∧
    (∃ v : SentWord, ∃ f, (allWords (some ⟨0#24, .ready, 1#8⟩))[5] = some f ∧
      f.echo = driving.bus.sequence + 1#8 ∧
      v = { position := d1Of driving .lift, enabled := isEnabled driving .lift, sequence := driving.bus.sequence + 1#8 }) ∧
    (allWords none)[5] = none :=
  ⟨⟨rfl, rfl, rfl, rfl⟩, by decide, ⟨_, _, rfl, rfl, rfl⟩, rfl⟩

theorem test_witness_FramesSendReceiveAndCheck_checks :
    (((withDrive { Drive.reset with silent := 2 }).bus.drives.get .lift).silent = 2 ∧
      (PerAxis.fill (none : Option FeedbackWord)).get .lift = none) ∧
    (((withDrive { Drive.reset with state := .fault }).bus.drives.get .lift).state = .fault ∧
      (PerAxis.fill DriveState.ready).get .lift ≠ .fault) ∧
    ((live.settings.limits.get .lift).followingPersistence = 10 ∧ Drive.reset.following < 10) ∧
    (∃ d : Drive, d.sent = some ⟨500, true, 1#8⟩ ∧ d.echo = .good ∧ (500 - d.feedback).natAbs = 500) :=
  ⟨⟨rfl, rfl⟩, ⟨rfl, by decide⟩, ⟨rfl, by decide⟩,
    { Drive.reset with sent := some ⟨500, true, 1#8⟩, echo := .good }, rfl, rfl, rfl⟩

/-! ## Fault control -/

/-- One flag set. -/
def flagged (src : FaultSource) (s : State) : State := s.setSource src { flag := true, axes := 0#8 }

theorem test_witness_RaisesRecordNotifyAndStop :
    anyFlag live = false ∧ anyFlag (flagged .staleA live) = true ∧
    ((actionSet live .following).hold = true ∧ (actionSet live .following).safeStop = false ∧
      AxisSet.has live.settings.fitted .lift = true ∧ AxisSet.has 4#8 .zoom = false) ∧
    ((live.queue.map Move.id).Nodup ∧ live.faults.safeStop = .released ∧ FaultSource.following ≠ .estop) ∧
    ((actionSet driving .driveFault).safeStop = true ∧ (actionSet driving .driveFault).hold = false ∧
      (stoppingAt 0 1).faults.safeStop = .stopping) ∧
    (driving.faults.safeStop = .normal ∧ AxisSet.has driving.settings.fitted .lift = true ∧
      isEnabled driving .lift = true) ∧
    (busy.faults.safeStop = .normal ∧ ∀ a ∈ Axis.all, isEnabled busy a = false) := by decide

/-- The axes that HOLD names, for a source of each row of R146. -/
theorem test_witness_heldByRaise :
    heldByRaise { carriesNothing with axes := some 4#8 } driving .lift .zoneEntry ∧
    heldByRaise (carriesMaster .consoleA) driving .lift .staleA ∧
    ¬ heldByRaise (carriesMaster .consoleB) driving .lift .linkBError ∧
    heldByRaise carriesNothing driving .zoom .configInvalid ∧ ¬ heldByRaise carriesNothing driving .zoom .estop :=
  ⟨⟨_, rfl, rfl⟩, ⟨_, rfl, rfl⟩, fun ⟨_, h, h'⟩ => by injection h with h; subst h; exact absurd h' (by decide), trivial,
    nofun⟩

/-- READY at a time with the two timers and the E-STOP input. -/
def timers (ms : Nat) (e : Option Nat) (v : SafeStop) (t : Option Nat) (input : Bool) : State :=
  { live with
    timebase := { ms := ms, counts := 0 }
    faults := { FaultUnit.reset with escalation := e, safeStop := v, stopTimer := t, estopActive := input } }

theorem test_witness_EstopAndTimersAct :
    (elapse 0 (timers 0 none .normal none true)).faults.estopActive = true ∧
    ((elapse 0 State.reset).faults.estopActive = false ∧ (elapse 0 State.reset).startup.phase ≠ .ready) ∧
    ((elapse 0 live).faults.estopActive = false ∧ (elapse 0 live).startup.phase = .ready) ∧
    ((elapse 0 (timers 10 (some 10) .normal none false)).faults.escalation = some 10 ∧
      10 ≤ (elapse 0 (timers 10 (some 10) .normal none false)).timebase.ms ∧
      (elapse 0 (timers 9 (some 10) .normal none false)).timebase.ms < 10) ∧
    ((elapse 0 (timers 10 none .stopping (some 10) false)).faults.stopTimer = some 10 ∧
      (elapse 0 (timers 10 none .stopping (some 10) false)).faults.safeStop = .stopping ∧
      10 ≤ (elapse 0 (timers 10 none .stopping (some 10) false)).timebase.ms ∧
      (elapse 0 (timers 9 none .stopping (some 10) false)).timebase.ms < 10) := by decide

theorem test_witness_FaultRequestsSetClearAndReturn_set :
    (taken (.setFaultActions hS 2 0) live live ∧ taken (.setFaultActions hS 15 31) live live ∧
      taken (.setFaultActions hS 1 0) live live ∧ taken (.setFaultActions hS 16 0) live live ∧
      taken (.setFaultActions hS 2 32) live live ∧ FaultSource.busSyncLost.id.val = 2 ∧
      FaultSource.configInvalid.id.val = 15) ∧
    (taken (.setFaultActions hS 2 4) (flagged .following live) (flagged .following live) ∧
      flagSet (flagged .following live) .following = true ∧
      (actionSet (flagged .following live) .following).delay = true) ∧
    (taken (.setFaultTimers hS 1 100) live live ∧ taken (.setFaultTimers hS 1000 1) live live ∧
      taken (.setFaultTimers hS 1001 1) live live ∧ taken (.setFaultTimers hS 1 0) live live) ∧
    (taken (.faultClear hS 0xFFFF#16) (flagged .staleA live) (flagged .staleA live) ∧
      actsAsSupervisor (flagged .staleA live) .supervisor = true ∧
      conditionPersists (flagged .staleA live) .staleA = true ∧
      conditionPersists (flagged .following live) .following = false) ∧
    taken (.faultClear hS 0#16) live live :=
  ⟨⟨rfl, rfl, rfl, rfl, rfl, rfl, rfl⟩, ⟨rfl, rfl, rfl⟩, ⟨rfl, rfl, rfl, rfl⟩, ⟨rfl, rfl, rfl, rfl⟩, rfl⟩

theorem test_witness_FaultRequestsSetClearAndReturn_release :
    (taken (.releaseClear hB) (timers 0 none .released none true) (timers 0 none .released none true) ∧
      (timers 0 none .released none true).faults.estopActive = true) ∧
    (taken (.releaseClear hB) (timers 0 none .stopping (some 5) false) (timers 0 none .stopping (some 5) false) ∧
      (timers 0 none .stopping (some 5) false).faults.safeStop = .stopping) ∧
    (taken (.releaseClear hB) (flagged .driveSilent live) (flagged .driveSilent live) ∧
      (FaultSource.all.filter fun src =>
        flagSet (flagged .driveSilent live) src && (actionSet (flagged .driveSilent live) src).safeStop) ≠ []) ∧
    (taken (.releaseClear hB) (flagged .staleA live) (flagged .staleA live) ∧
      (FaultSource.all.filter fun src =>
        flagSet (flagged .staleA live) src && (actionSet (flagged .staleA live) src).safeStop) = []) :=
  ⟨⟨rfl, rfl⟩, ⟨rfl, rfl⟩, ⟨rfl, by decide⟩, rfl, by decide⟩

/-! ## Start-up, saving and the laws -/

/-- An image with nothing wrong in it. -/
def soundImage : ConfigImage :=
  { formatRight := true, lengthRight := true, checkMatches := true, marker := false, valuesRead := true
    settings := Settings.builtIn, presets := (stored live).store }

/-- The load under way. -/
def loading : State := { State.reset with startup := { Startup.reset with phase := .loading }, memory := soundImage }

theorem test_witness_StartUpLoadsAndReachesReady :
    (elapse 0 State.reset).startup.phase = .hold ∧ (elapse 0 live).startup.phase ≠ .hold ∧
    (elapse 0 loading).startup.phase = .loading ∧ (elapse 0 live).startup.phase ≠ .loading ∧
    imageGood (elapse 0 loading) soundImage = true ∧ imageGood (elapse 0 loading) ConfigImage.unwritten = false ∧
    imageGood (elapse 0 loading) { soundImage with marker := true } = false ∧
    (elapse 0 loading).startup.cause = .powerOn := by decide

/-- The statement's good image: the sound image is one, and it is none with its marker set. -/
theorem test_witness_goodImage : goodImage True soundImage ∧ ¬ goodImage True { soundImage with marker := true } := by
  have off : ∀ n : Fin 8, soundImage.settings.zones[n].enabled = false := by decide
  refine ⟨⟨rfl, rfl, rfl, rfl, rfl,
    ⟨fun a => ?_, fun n => ⟨?_, ?_, fun h => absurd h (by rw [off n]; decide), fun a => ?_⟩,
      fun m => ⟨fun a => ?_, ?_⟩, ?_⟩,
    fun _ => ?_⟩, fun h => nomatch h.1⟩
  · cases a <;> (unfold limitRanges; decide)
  · revert n; decide
  · revert n; decide
  · cases a <;> (revert n; unfold positionRange; decide)
  · cases m <;> cases a <;> decide
  · cases m <;> exact ⟨by decide, by decide, by decide, by decide, nofun, fun _ h => by injection h; omega⟩
  · decide
  · have hr : ∀ e ∈ soundImage.presets.records, e.2 = record := by decide
    have hb : ∀ e ∈ soundImage.presets.banks, e.2.target = .run 0 16 := by decide
    refine ⟨by decide, by decide, by decide, nofun, fun e he => ?_, fun e he => ?_⟩
    · rw [hb e he]
      exact ⟨nofun, fun _ _ h => by cases h; decide⟩
    · rw [hr e he]
      refine ⟨by decide, fun b h => ?_⟩
      cases h
      refine ⟨by decide, by decide, by decide, nofun, fun k hk => ?_⟩
      rw [List.mem_singleton.1 hk]
      refine ⟨by decide, by decide, fun a => ?_⟩
      cases a
      case lift => exact ⟨fun _ => ⟨1000, rfl, by decide, by decide⟩, nofun⟩
      all_goals exact ⟨nofun, fun _ => rfl⟩

/-- A record whose label has no characters is loaded without one, and a loaded limit OFF makes SUPERVISOR FRESH. -/
theorem test_load :
    (loadedBody { axes := 4#8, keyframes := [keyframe], label := some [] }).label = none ∧
    bodyInRange { axes := 4#8, keyframes := [keyframe], label := some [] } = true ∧
    (freshWhereOff { PerMaster.fill (some 50) with supervisor := none } live.joysticks).supervisor.stale = .fresh ∧
    (freshWhereOff (PerMaster.fill (some 50)) live.joysticks).supervisor.stale = .stale := by decide

/-- An image with one value outside its range for each kind of value. -/
theorem test_imagesOutOfRange :
    settingsInRange { Settings.builtIn with limits := PerAxis.fill { Limits.builtIn with vmax := 0 } } = false ∧
    settingsInRange { Settings.builtIn with zones := Vector.replicate 8 { ZoneSetting.builtIn with axes := 1#8 } } = false ∧
    settingsInRange { Settings.builtIn with
      fitted := 1#8, zones := Vector.replicate 8 { ZoneSetting.builtIn with enabled := true } } = false ∧
    settingsInRange { Settings.builtIn with staleLimits := PerMaster.fill none } = false ∧
    settingsInRange { Settings.builtIn with staleLimits := { PerMaster.fill (some 250) with supervisor := none } } = true ∧
    settingsInRange { Settings.builtIn with views := PerMaster.fill ⟨true, 4, 16, 0⟩ } = false ∧
    settingsInRange { Settings.builtIn with period := 4001 } = false ∧
    presetsInRange { PresetStore.cleared with banks := [(0, ⟨false, .run 0 17⟩)] } = false ∧
    presetsInRange { PresetStore.cleared with records := [(0, { record with key := 16 })] } = false := by decide

/-- READY with a save in flight. -/
def saving : State := { live with save := some { requester := .supervisor, copied := Settings.builtIn } }

theorem test_witness_SavesWriteTheImage :
    (taken (.saveStore hS) live live ∧ actsAsSupervisor live .supervisor = true ∧ live.save = none) ∧
    (taken (.saveStore hS) saving saving ∧ saving.save ≠ none) ∧
    ((elapse 0 live).save = none ∧ (elapse 0 saving).save = some { requester := .supervisor, copied := Settings.builtIn }) :=
  ⟨⟨rfl, rfl, rfl⟩, ⟨rfl, by decide⟩, rfl, rfl⟩

theorem test_witness_ResetsLeaveEachBlockAtItsReset :
    (taken (.restart hS) driving driving ∧ actsAsSupervisor driving .supervisor = true ∧
      AxisSet.has driving.settings.fitted .lift = true ∧ isEnabled driving .lift = true) ∧
    (taken (.restart hS) saving saving ∧ saving.save ≠ none ∧ taken (.restart hS) live live ∧ live.save = none ∧
      ∀ a, AxisSet.has live.settings.fitted a = true → isEnabled live a = false) :=
  ⟨⟨rfl, rfl, rfl, rfl⟩, rfl, by decide, rfl, rfl, fun a _ => by cases a <;> rfl⟩

/-- The reply to a request judged per axis. -/
def judgedReply (l : List AxisOutcome) : LinkFrame :=
  .reply 7#8 { refusal := none, omitted := 0, data := .outcomes l }

/-- Two refusal replies, a reply judged per axis in which one outcome has data, and the two kinds of lines. -/
theorem test_witness_SentFramesAndLinesFollowTheState :
    (no .badArgument).payload (fun _ => []) = [1#8, 0#8] ∧
    (judgedReply [.granted, .held (some .consoleB), .owned]).payload (fun n => List.replicate n 9#8) =
      [0#8, 0#8, 64#8, 67#8, 9#8, 65#8] ∧
    (no .faultsSet).payload (fun _ => []) = [34#8, 0#8] ∧
    (AxisSet.has (tally { moving [move 1 .running] live with
        startup := { live.startup with mode := .standalone } }) .lift = true ∧
      tally (moving [move 1 .running] live) = 0#8) ∧
    faultLine live = false ∧ faultLine (live.setSource .estop { flag := true, axes := 0#8 }) = true := by decide

/-- RESTART waits at the front of the queue of a part with moves, a cache and a store. -/
def busyPart : State := { moving eight driving with pending := [.restart hS], cache := cached.cache }

theorem test_witness_StepsKeepLinksCacheAndStore :
    linkLaw busyPart ∧ cacheLaw busyPart ∧ storeLaw busyPart ∧ ∃ t, step busyPart = .next t := by
  refine ⟨fun m => ?_, by unfold cacheLaw; decide, by unfold storeLaw; decide, _, rfl⟩
  cases m <;> (unfold Port.bounded; decide)

theorem test_witness_StepsKeepFaultLaws :
    firstFaultLaw busyPart ∧ enableLaw busyPart ∧ safeStopLaw busyPart ∧ ∃ t, step busyPart = .next t := by
  refine ⟨by unfold firstFaultLaw; decide, ⟨fun _ _ => rfl, nofun⟩, ⟨nofun, nofun, nofun⟩, _, rfl⟩

theorem test_witness_StepsKeepAuthorityAndQueue :
    authorityLaw busyPart ∧ queueLaw busyPart ∧ ownershipLaw busyPart ∧ ∃ t, step busyPart = .next t := by
  refine ⟨fun a => ?_, by unfold queueLaw; decide, fun m hm => ?_, _, rfl⟩
  · cases a <;> exact ⟨by decide, by decide, by decide, by decide, by decide⟩
  · have h : ∀ m ∈ eight, m.axes = 4#8 ∧ m.requester = .consoleA := by decide
    rw [(h m hm).1, (h m hm).2]
    exact ⟨by decide, fun a _ => by cases a <;> rfl⟩

/-- The part with SUPERVISOR's stale limit OFF. -/
def offPart : State :=
  { busyPart with
    settings := { Settings.builtIn with staleLimits := { PerMaster.fill (some 50) with supervisor := none } }
    joysticks := { busyPart.joysticks with supervisor := { busyPart.joysticks.supervisor with stale := .fresh } } }

theorem test_witness_StepsKeepTimecodeBusAndStaleState :
    (timecodeLaw offPart ∧ busLaw offPart ∧ staleLaw offPart ∧ ∃ t, step offPart = .next t) ∧
    offPart.bus.state = .running ∧ offPart.settings.staleLimits.get .supervisor = none :=
  ⟨⟨⟨by decide, nofun⟩, ⟨fun _ a => by cases a <;> decide, nofun⟩, fun _ _ => rfl, _, rfl⟩, rfl, rfl⟩

/-! ## Single steps -/

theorem test_idle_step : step State.reset = .next (elapse 1 State.reset) := rfl

theorem test_fetch_word : State.reset.withFetchWord 8 0 = State.reset := rfl

/-- The safe stop of a moving part begins, and that of a part at rest is over at once. -/
theorem test_safeStop :
    (safeStopEntry .escalation driving).state.faults.safeStop = .stopping ∧
    (safeStopEntry .escalation busy).state.faults.safeStop = .released ∧
    (safeStopEntry .escalation busy).state.bus.latch = true := by decide

set_option maxRecDepth 20000 in
/-- A frame of an axis in HOLD at rest sends its D1 and leaves it. -/
theorem test_frame_hold :
    (frame (allWords (some ⟨0#24, .ready, 1#8⟩)) driving).state.bus.sequence = 1#8 ∧
    ((frame (allWords (some ⟨0#24, .ready, 1#8⟩)) driving).state.bus.drives.get .lift).echo = .good ∧
    (frame (allWords none) driving).state.bus.slotWords[4] =
      some { position := 0, enabled := true, sequence := 1#8 } ∧
    (frame (allWords none) driving).state.bus.slotWords[5] = none ∧
    ((frame (allWords none) driving).state.bus.drives.get .lift).silent = 1 ∧
    d1Of (frame (allWords none) driving).state .lift = 0 := by decide

set_option maxRecDepth 20000 in
/-- A recalled move starts in the frame that follows and moves LIFT by its acceleration limit. -/
theorem test_frame_startsMove :
    ((frame (allWords none) (stored (oneMove (move 1 .queued)))).state.queue.map Move.state) = [.running] ∧
    ((frame (allWords none) (stored (oneMove (move 1 .queued)))).state.blend.get .lift).preset = 250 ∧
    d1Of (frame (allWords none) (stored (oneMove (move 1 .queued)))).state .lift = 20 := by decide

end Sys2Proof.Tests
end

section
/-! PROOFS. What a request of the authority table leaves when it changes no owner, and WITHDRAW WAIT (R22). -/

namespace Sys2Proof.Machine

/-! ## Requests that change no owner (R16, R24, R27) -/

@[simp] theorem Verdict.keep_outcome (o : AxisOutcome) (r : Authority) : (Verdict.keep o r).outcome = o := rfl
@[simp] theorem Verdict.keep_record (o : AxisOutcome) (r : Authority) : (Verdict.keep o r).record = r := rfl

theorem holdAxes_zero (s : State) : holdAxes 0#8 s = s := by
  have hb : mapAt 0#8 Blend.toHold s.blend = s.blend := PerAxis.ext_get fun a => by simp
  unfold holdAxes
  rw [hb]

theorem groupedPosts_none (dest : Master) (mk : AxisSet → Master → Notice) :
    groupedPosts dest (fun _ => none) mk = [] := by
  simp [groupedPosts]

theorem changedSet_eq_zero {x : AxisSet} {v : Axis → Verdict} (hv : ∀ a, (v a).changed = false) :
    changedSet x v = 0#8 :=
  AxisSet.eq_zero_iff.2 fun a => by simp [changedSet, hv a]

theorem ownershipPosts_eq_nil {s : State} {x : AxisSet} {v : Axis → Verdict}
    (hg : ∀ a, (v a).granted = false) (ht : ∀ a, (v a).taken = false) : ownershipPosts s x v = [] := by
  simp [ownershipPosts, hg, ht, groupedPosts_none]

/-- A request of the authority table under which every owner stands writes the records and nothing else: no axis
is withdrawn or held, and no notice is sent. The moves must hold axes, since even the withdrawal of no axis
removes a move that holds none. -/
theorem authorityEvent_of_keep {x : AxisSet} {v : Axis → Verdict} {s : State}
    (hv : ∀ a, v a = .keep (v a).outcome (v a).record) (hq : ∀ m ∈ s.queue, m.axes ≠ 0#8) :
    authorityEvent x v s =
      accept (recordVerdicts x v s) (.outcomes ((AxisSet.members x).map fun a => (v a).outcome)) := by
  have hchanged : changedSet x v = 0#8 := changedSet_eq_zero fun a => congrArg Verdict.changed (hv a)
  have hposts : ownershipPosts s x v = [] :=
    ownershipPosts_eq_nil (fun a => congrArg Verdict.granted (hv a)) fun a => congrArg Verdict.taken (hv a)
  have hwithdraw : withdraw 0#8 (recordVerdicts x v s) = quiet (recordVerdicts x v s) := withdraw_zero hq
  simp [authorityEvent, accept, hchanged, hposts, hwithdraw, holdAxes_zero]

theorem authorityRequest_pass {x : AxisSet} {s : State} (hx : axesPass s x) (v : State → Axis → Verdict) :
    authorityRequest x true v s = authorityEvent x (v s) s := by
  obtain ⟨hfitted, hne⟩ := hx
  simp [authorityRequest, axisSetCheck_pass hfitted hne]

/-! ## WITHDRAW WAIT (R22) -/

theorem withdrawWaitVerdict_waiting {m : Master} {r : Authority} (h : ∃ e ∈ r.waiting, e.waiter = m) :
    withdrawWaitVerdict m r =
      .keep .waitWithdrawn { r with waiting := r.waiting.filter fun e => e.waiter != m } :=
  if_pos (by simpa using h)

theorem withdrawWaitVerdict_notWaiting {m : Master} {r : Authority} (h : ∀ e ∈ r.waiting, e.waiter ≠ m) :
    withdrawWaitVerdict m r = .keep .notWaiting r :=
  if_neg (by simpa using h)

/-- WITHDRAW WAIT changes no owner. -/
theorem withdrawWaitVerdict_keep (m : Master) (r : Authority) :
    withdrawWaitVerdict m r = .keep (withdrawWaitVerdict m r).outcome (withdrawWaitVerdict m r).record := by
  by_cases h : ∃ e ∈ r.waiting, e.waiter = m
  · simp [withdrawWaitVerdict_waiting h]
  · have hnone : ∀ e ∈ r.waiting, e.waiter ≠ m := fun e he hm => h ⟨e, he, hm⟩
    simp [withdrawWaitVerdict_notWaiting hnone]

/-- What WITHDRAW WAIT answers where its axis set passes R1. -/
theorem withdrawWait_pass {m : Master} {x : AxisSet} {s : State} (hx : axesPass s x)
    (hq : ∀ m ∈ s.queue, m.axes ≠ 0#8) :
    withdrawWait m x s =
      accept (recordVerdicts x (fun a => withdrawWaitVerdict m (s.authority.get a)) s)
        (.outcomes ((AxisSet.members x).map fun a => (withdrawWaitVerdict m (s.authority.get a)).outcome)) :=
  (authorityRequest_pass hx _).trans (authorityEvent_of_keep (fun _ => withdrawWaitVerdict_keep _ _) hq)

/-- Settles O21: no verdict of WITHDRAW WAIT changes an owner, so by the law of ownership (no move is without
axes) the event is the writing of the records alone. -/
theorem withdrawWaitRemovesTheEntry : Obligations.WithdrawWaitRemovesTheEntry := by
  intro h x s s0 ht hx hown
  have hexec : exec (.withdrawWait h x) s = .next (answer h (withdrawWait h.link x s0)) := request_taken ht
  rw [withdrawWait_pass hx fun m hm => (hown m hm).1, answer_accept] at hexec
  refine ⟨_, _, hexec, fun a => ⟨fun hax => ⟨fun hw => ?waiting, fun hw => ?notWaiting⟩, fun hax => ?unnamed⟩⟩
  case waiting => simp [hax, withdrawWaitVerdict_waiting hw]
  case notWaiting => simp [hax, withdrawWaitVerdict_notWaiting hw]
  case unnamed => simp [hax]

end Sys2Proof.Machine
end

section
/-! PROOFS. The four steps of the joystick shaper (R37), and whose velocity an axis takes (R38). -/

namespace Sys2Proof.Machine

/-! ## Arithmetic of the divisions toward zero -/

/-- Truncation toward zero only shrinks a magnitude, so a bound scaled by the divisor comes through the division. -/
theorem natAbs_tdiv_le_of_le_mul {a b : Int} {n : Nat} (h : a.natAbs ≤ b.natAbs * n) :
    (a.tdiv b).natAbs ≤ n := by
  rw [Int.natAbs_tdiv]
  exact Nat.div_le_of_le_mul h

/-! ## Steps 1 and 2: the rescaled deflection -/

theorem rescale_within {p : Profile} {x : Int} (h : x.natAbs ≤ p.deadband) : rescale p x = 0 := if_pos h

theorem rescale_outside {p : Profile} {x : Int} (h : p.deadband < x.natAbs) :
    rescale p x = x.sign * (((x.natAbs : Int) - p.deadband) * 2047).tdiv (2047 - p.deadband) :=
  if_neg (Nat.not_le.2 h)

@[simp] theorem rescale_neg (p : Profile) (x : Int) : rescale p (-x) = -rescale p x := by
  rcases Nat.lt_or_ge p.deadband x.natAbs with h | h
  · rw [rescale_outside h, rescale_outside (by rwa [Int.natAbs_neg]), Int.natAbs_neg, Int.sign_neg, Int.neg_mul]
  · rw [rescale_within h, rescale_within (by rwa [Int.natAbs_neg]), Int.neg_zero]

theorem rescale_full {p : Profile} (hd : p.deadband < 2047) : rescale p 2047 = 2047 := by
  have hpos : (2047 : Int) - p.deadband ≠ 0 := by omega
  simp [rescale_outside (x := 2047) hd, Int.mul_tdiv_cancel_left _ hpos]

/-- The travel outside the deadband is at most 2047 − db, so the rescaled deflection keeps to the full range. -/
theorem natAbs_rescale_le {p : Profile} {x : Int} (hd : p.deadband < 2047) (hx : x.natAbs ≤ 2047) :
    (rescale p x).natAbs ≤ 2047 := by
  rcases Nat.lt_or_ge p.deadband x.natAbs with h | h
  · have hsign : x.sign.natAbs = 1 := Int.natAbs_sign_of_ne_zero (by omega)
    rw [rescale_outside h, Int.natAbs_mul, hsign, Nat.one_mul]
    exact natAbs_tdiv_le_of_le_mul (by omega)
  · simp [rescale_within h]

/-! ## Step 3: the blend of line and cube -/

@[simp] theorem applyExpo_zero (p : Profile) : applyExpo p 0 = 0 := by simp [applyExpo]

/-- A cube is odd and a division toward zero is odd in its dividend, so the blend is. -/
@[simp] theorem applyExpo_neg (p : Profile) (u : Int) : applyExpo p (-u) = -applyExpo p u := by
  have hcube : (-u) ^ 3 = -u ^ 3 := by
    simp only [Int.pow_succ, Int.pow_zero, Int.mul_neg, Int.neg_mul, Int.neg_neg]
  rw [applyExpo, applyExpo, hcube, Int.mul_neg, Int.mul_neg, Int.neg_tdiv, ← Int.neg_add, Int.neg_tdiv]

/-- Line and cube both pass through 2047 at 2047, whatever the expo. -/
theorem applyExpo_full (p : Profile) : applyExpo p 2047 = 2047 := by
  have hcube : (p.expo : Int) * 2047 ^ 3 = (p.expo * 2047) * 4190209 := by omega
  have hsum : (256 - (p.expo : Int)) * 2047 + p.expo * 2047 = 2047 * 256 := by omega
  rw [applyExpo, hcube, Int.mul_tdiv_cancel _ (by decide), hsum, Int.mul_tdiv_cancel _ (by decide)]

/-- The cube over 2047² keeps to the expo's share of the full range. -/
theorem natAbs_cube_le {u : Int} (e : Nat) (hu : u.natAbs ≤ 2047) :
    (((e : Int) * u ^ 3).tdiv 4190209).natAbs ≤ e * 2047 := by
  refine natAbs_tdiv_le_of_le_mul ?_
  have hcube : u.natAbs ^ 3 ≤ 2047 ^ 3 := Nat.pow_le_pow_left hu 3
  have hdivisor : (4190209 : Int).natAbs = 4190209 := rfl
  calc ((e : Int) * u ^ 3).natAbs = e * u.natAbs ^ 3 := by simp [Int.natAbs_mul, Int.natAbs_pow]
    _ ≤ e * 2047 ^ 3 := Nat.mul_le_mul_left e hcube
    _ = (4190209 : Int).natAbs * (e * 2047) := by rw [hdivisor]; omega

/-- The line takes 256 − e and the cube e parts of 256 of the full range, so the blend keeps to it. -/
theorem natAbs_applyExpo_le {p : Profile} {u : Int} (he : p.expo ≤ 256) (hu : u.natAbs ≤ 2047) :
    (applyExpo p u).natAbs ≤ 2047 := by
  refine natAbs_tdiv_le_of_le_mul ?_
  have hline : ((256 - (p.expo : Int)) * u).natAbs ≤ (256 - p.expo) * 2047 := by
    have hweight : (256 - (p.expo : Int)).natAbs = 256 - p.expo := by omega
    rw [Int.natAbs_mul, hweight]
    exact Nat.mul_le_mul_left _ hu
  have hcube := natAbs_cube_le p.expo hu
  have hsum := Int.natAbs_add_le ((256 - (p.expo : Int)) * u) (((p.expo : Int) * u ^ 3).tdiv 4190209)
  omega

/-! ## Step 4: the velocity -/

theorem shape_eq (p : Profile) (x : Int) :
    shape p x = if p.invert then -(applyExpo p (rescale p x) * p.gain).tdiv 2047
      else (applyExpo p (rescale p x) * p.gain).tdiv 2047 := rfl

theorem shape_within {p : Profile} {x : Int} (h : x.natAbs ≤ p.deadband) : shape p x = 0 := by
  simp [shape_eq, rescale_within h]

/-- Every step is odd in what it takes, so the shaper is odd in the deflection. -/
theorem shape_neg (p : Profile) (x : Int) : shape p (-x) = -shape p x := by
  simp only [shape_eq, rescale_neg, applyExpo_neg, Int.neg_mul, Int.neg_tdiv]
  split <;> rfl

theorem shape_full {p : Profile} (hd : p.deadband < 2047) :
    shape p 2047 = if p.invert then -(p.gain : Int) else (p.gain : Int) := by
  rw [shape_eq, rescale_full hd, applyExpo_full, Int.mul_tdiv_cancel_left _ (by decide)]

/-- The blend keeps to the full range, so the velocity keeps to the gain. -/
theorem natAbs_shape_le_gain {p : Profile} {x : Int} (hd : p.deadband < 2047) (he : p.expo ≤ 256)
    (hx : x.natAbs ≤ 2047) : (shape p x).natAbs ≤ p.gain := by
  have hv : ((applyExpo p (rescale p x) * p.gain).tdiv 2047).natAbs ≤ p.gain := by
    refine natAbs_tdiv_le_of_le_mul ?_
    rw [Int.natAbs_mul, Int.natAbs_natCast]
    exact Nat.mul_le_mul_right _ (natAbs_applyExpo_le he (natAbs_rescale_le hd hx))
  rw [shape_eq]
  split
  · rwa [Int.natAbs_neg]
  · exact hv

/-! ## The shaped velocity of an axis -/

theorem shapedVelocity_unowned {s : State} {a : Axis} (h : ownerOf s a = none) : shapedVelocity s a = 0 := by
  simp [shapedVelocity, h]

theorem shapedVelocity_stale {s : State} {a : Axis} {m : Master} (h : ownerOf s a = some m)
    (hm : (s.joysticks.get m).stale = .stale) : shapedVelocity s a = 0 := by
  simp [shapedVelocity, h, hm]

theorem shapedVelocity_fresh {s : State} {a : Axis} {m : Master} (h : ownerOf s a = some m)
    (hm : (s.joysticks.get m).stale = .fresh) :
    shapedVelocity s a = shape ((s.settings.profiles.get m).get a) ((s.joysticks.get m).sample.get a) := by
  simp [shapedVelocity, h, hm]

/-! ## Magnitude and sign as R37 writes them -/

/-- The magnitude as R37 compares it is the absolute value. -/
theorem magnitude_eq_natAbs (x : Int) : (if x < 0 then -x else x) = (x.natAbs : Int) := by
  split <;> omega

/-- Outside the deadband the deflection is not 0, so its sign is one of the two of step 2. -/
theorem sign_eq_of_ne_zero {x : Int} (h : x ≠ 0) : x.sign = if x < 0 then -1 else 1 := by
  split
  · exact Int.sign_eq_neg_one_of_neg ‹_›
  · exact Int.sign_eq_one_of_pos (by omega)

/-! ## The settled statement -/

/-- Settles O27: each step of R37 is odd, keeps within the full range of 2047 and takes its end to itself, up to
the last step, which turns the full range into the gain. -/
theorem shapedVelocityIsTheOwners : Obligations.ShapedVelocityIsTheOwners := by
  refine ⟨fun p x => ?_, fun s a => ⟨shapedVelocity_unowned, fun _ => shapedVelocity_stale,
    fun _ => shapedVelocity_fresh⟩⟩
  simp only [magnitude_eq_natAbs]
  refine ⟨fun h => shape_within (by omega), fun h => ?outside, shape_neg p x,
    fun hd _ => shape_full (by omega), fun hd he hg hx => ?bound⟩
  case outside =>
    rw [shape_eq, rescale_outside (by omega), sign_eq_of_ne_zero (by omega)]
    rfl
  case bound =>
    have hgain : (shape p x).natAbs ≤ p.gain := natAbs_shape_le_gain (by omega) he (by omega)
    exact Nat.le_trans hgain hg

end Sys2Proof.Machine
end

section
/-! PROOFS. The scope of a PURGE, who may purge it, and what the purge leaves of the cache (R72). -/

namespace Sys2Proof.Machine

/-! ## The scope -/

theorem scopeOf_none {n : Nat} (h : ¬(n = 255 ∨ n < 4)) : scopeOf n = none := by
  obtain ⟨hall, hdir⟩ := not_or.1 h
  rw [scopeOf, if_neg hall, if_neg hdir]

/-- ALL and the four directories are scopes. No directory has the number 255, so one test of the octet covers
what either kind of scope covers. -/
theorem scopeOf_some {n : Nat} (h : n = 255 ∨ n < 4) :
    ∃ sc, scopeOf n = some sc ∧ sc.covers = fun e => n == 255 || e.directory == n := by
  rcases h with rfl | hdir
  · exact ⟨.all, rfl, rfl⟩
  · have hall : n ≠ 255 := by omega
    exact ⟨.directory n, by rw [scopeOf, if_neg hall, if_pos hdir], by funext e; simp [PurgeScope.covers, hall]⟩

/-! ## The three outcomes, in the order of the checks -/

section Purge
variable {m : Master} {n : Nat} {s : State}

theorem purge_notPermitted (h : ¬(actsAsSupervisor s m = true ∨ n = (s.settings.views.get m).directory)) :
    purge m n s = refuse s .notPermitted :=
  if_pos (by simpa [viewOf] using h)

theorem purge_permitted (h : actsAsSupervisor s m = true ∨ n = (s.settings.views.get m).directory) :
    purge m n s = (scopeOf n).elim (refuse s .badArgument) fun sc =>
      accept (s.setCache (s.cache.filter fun e => !(sc.covers e))) (.purged (s.cache.filter sc.covers).length) := by
  have hguard : ¬(!(actsAsSupervisor s m) && n != (viewOf s m).directory) = true := by
    rcases h with h | h <;> simp [viewOf, h]
  rw [purge, if_neg hguard]
  cases scopeOf n <;> rfl

end Purge

/-- Settles O30: the port hands the request to `purge`, whose guard is the table's NOT_PERMITTED and whose scope
is read from the octet, with ALL or a directory the only ones. -/
theorem purgeRemovesTheScope : Obligations.PurgeRemovesTheScope := by
  intro h n s s0 ht covered
  have hexec : exec (.purge h n) s = .next (answer h (purge h.link n s0)) := request_taken ht
  rw [hexec]
  refine ⟨fun hp => ?notPermitted, fun hp => ⟨fun hn => ?badArgument, fun hn => ?accepted⟩⟩
  case notPermitted => rw [purge_notPermitted hp, answer_refuse]
  case badArgument => rw [purge_permitted hp, scopeOf_none hn, Option.elim_none, answer_refuse]
  case accepted =>
    obtain ⟨sc, hsc, hcovers⟩ := scopeOf_some hn
    rw [purge_permitted hp, hsc, Option.elim_some, answer_accept, hcovers]
    rfl

end Sys2Proof.Machine
end

section
/-! PROOFS. Facts about lists and optional values that the core library does not state. -/

namespace Sys2Proof.Machine

theorem nodup_one {α : Type} (a : α) : [a].Nodup := List.nodup_cons.2 ⟨List.not_mem_nil, List.nodup_nil⟩

/-- Items of a list with one image are one item where the images do not repeat. -/
theorem eq_of_nodup_map {α β : Type} {f : α → β} {l : List α} (hn : (l.map f).Nodup) {a b : α} (ha : a ∈ l) (hb : b ∈ l)
    (h : f a = f b) : a = b := by
  induction l with
  | nil => exact absurd ha List.not_mem_nil
  | cons x l ih =>
    obtain ⟨hx, hl⟩ := List.nodup_cons.1 hn
    rcases List.mem_cons.1 ha with rfl | hal
    · rcases List.mem_cons.1 hb with rfl | hbl
      · rfl
      · exact absurd (h ▸ List.mem_map_of_mem hbl) hx
    · rcases List.mem_cons.1 hb with rfl | hbl
      · exact absurd (h ▸ List.mem_map_of_mem hal) hx
      · exact ih hl hal hbl

theorem nodup_of_map {α β : Type} {f : α → β} {l : List α} (hn : (l.map f).Nodup) : l.Nodup :=
  (List.pairwise_map.1 hn).imp fun hne he => hne (congrArg f he)

/-- A map that tells the items of a list apart keeps it without repeats. -/
theorem nodup_map_of {α β : Type} {f : α → β} {l : List α} (hf : ∀ a ∈ l, ∀ b ∈ l, f a = f b → a = b)
    (hn : l.Nodup) : (l.map f).Nodup :=
  List.pairwise_map.2 (hn.imp_of_mem fun {a b} ha hb hne he => hne (hf a ha b hb he))

theorem filter_all {α : Type} (l : List α) : (l.filter fun _ => true) = l := List.filter_eq_self.2 fun _ _ => rfl

theorem filter_nothing {α : Type} (l : List α) : (l.filter fun _ => false) = [] :=
  List.filter_eq_nil_iff.2 fun _ _ => Bool.false_ne_true

theorem exists_three {α : Type} {l : List α} (h : l.length = 3) : ∃ a b c, l = [a, b, c] :=
  ⟨_, _, _, List.eq_getElem_of_length_eq_three l h⟩

theorem orElse_eq_none_iff {α : Type} {a b : Option α} : (a <|> b) = none ↔ a = none ∧ b = none := by
  cases a with
  | none => exact ⟨fun h => ⟨rfl, h⟩, fun h => h.2⟩
  | some v => exact iff_of_false nofun fun h => nomatch h.1

end Sys2Proof.Machine
end

section
/-! PROOFS. Which fields of the state each command can write, and how a law of the state passes through a step: it
is enough to look at the commands whose fields the law reads. -/

namespace Sys2Proof.Machine

/-! ## Fields and footprints -/

/-- The fields of the state that a command other than a reset can write beside the queue of commands and the clock. -/
inductive Field where
  | startup | save | memory | settings | store | ports | authority | joysticks | cache | queue | nextMoveId
  | blend | couplings | demand | clamped | armed | timecode | bus | faults | freeDraws

/-- A reading of the state does not look at a field. -/
def Field.FreeIn {α : Type} (g : State → α) : Field → Prop
  | .startup => ∀ s x, g { s with startup := x } = g s
  | .save => ∀ s x, g { s with save := x } = g s
  | .memory => ∀ s x, g { s with memory := x } = g s
  | .settings => ∀ s x, g { s with settings := x } = g s
  | .store => ∀ s x, g { s with store := x } = g s
  | .ports => ∀ s x, g { s with ports := x } = g s
  | .authority => ∀ s x, g { s with authority := x } = g s
  | .joysticks => ∀ s x, g { s with joysticks := x } = g s
  | .cache => ∀ s x, g { s with cache := x } = g s
  | .queue => ∀ s x, g { s with queue := x } = g s
  | .nextMoveId => ∀ s x, g { s with nextMoveId := x } = g s
  | .blend => ∀ s x, g { s with blend := x } = g s
  | .couplings => ∀ s x, g { s with couplings := x } = g s
  | .demand => ∀ s x, g { s with demand := x } = g s
  | .clamped => ∀ s x, g { s with clamped := x } = g s
  | .armed => ∀ s x, g { s with armed := x } = g s
  | .timecode => ∀ s x, g { s with timecode := x } = g s
  | .bus => ∀ s x, g { s with bus := x } = g s
  | .faults => ∀ s x, g { s with faults := x } = g s
  | .freeDraws => ∀ s x, g { s with freeDraws := x } = g s

/-- A reading of the state looks at none of some fields. -/
def FreeOf {α : Type} (g : State → α) : List Field → Prop
  | [] => True
  | f :: l => f.FreeIn g ∧ FreeOf g l

/-- The commands that take a reset: they write every field. -/
def isReset : Instr → Bool
  | .powerOn _ | .lowSupply _ | .resetPin _ | .restart _ => true
  | _ => false

/-- The fields that a command other than a reset can write, beside what its port and the clock write. -/
def footprint : Instr → List Field
  | .claim .. | .release .. | .yield .. | .seize .. | .withdrawWait .. => [.queue, .blend, .authority]
  | .setMode .. | .takeLive .. | .abort .. => [.queue, .blend]
  | .enable .. | .disable .. | .busStart .. | .busStop .. => [.bus]
  | .storePreset .. | .capture .. | .appendKeyframe .. | .erasePreset .. => [.cache, .store]
  | .queryPreset .. | .purge .. => [.cache]
  | .recallCue .. => [.queue, .blend, .nextMoveId, .cache]
  | .go .. | .speed .. => [.queue]
  | .queryQueue .. | .queryZones .. | .queryBlend .. => [.freeDraws]
  | .status .. | .setReport .. => [.ports]
  | .releaseClear .. => [.bus, .faults]
  | .setProfile .. | .setView .. | .setBusConfig .. | .setFaultTimers .. => [.settings]
  | .setStaleLimit .. => [.queue, .blend, .bus, .faults, .joysticks, .settings]
  | .setFitted .. | .setZone .. => [.settings, .armed]
  | .setLimits .. => [.settings, .blend, .bus]
  | .setBankEntry .. | .setCueEntry .. => [.store]
  | .setCoupling .. => [.blend, .couplings]
  | .tcRun .. | .tcStop .. => [.timecode]
  | .setTimecode .. | .offsetTimecode .. => [.queue, .timecode]
  | .setRate .. => [.queue, .settings, .timecode]
  | .setFaultActions .. => [.settings, .faults]
  | .faultClear .. | .estopInactive .. => [.faults]
  | .saveStore .. => [.save]
  | .joy .. => [.joysticks, .ports]
  | .frameReceived .. => [.queue, .blend, .bus, .faults, .joysticks, .ports]
  | .frameLeavesQueue .. => [.freeDraws, .ports]
  | .powerUpHoldEnd .. | .resetRelease .. => [.startup]
  | .configurationLoad .. =>
    [.queue, .blend, .bus, .faults, .startup, .cache, .ports, .settings, .store, .joysticks, .memory]
  | .estop .. | .busSyncLost .. | .escalationExpiry .. | .stopTimerExpiry .. => [.queue, .blend, .bus, .faults]
  | .genlockPulse .. | .genlockLossEvent .. => [.queue, .blend, .bus, .faults, .timecode]
  | .frameStart .. | .busSyncEdge .. => [.queue, .blend, .bus, .faults, .demand, .clamped, .armed, .ports]
  | .waitExpiry .. => [.authority]
  | .staleEntry .. => [.queue, .blend, .bus, .faults, .joysticks]
  | .saveCompletion .. => [.memory, .freeDraws, .save]
  | .saveMarkerWritten .. => [.memory]
  | _ => []

theorem FreeOf.of_disjoint {α : Type} {g : State → α} {reads : Field → Bool}
    (free : ∀ f, reads f = false → f.FreeIn g) {l : List Field} (h : l.all (fun f => !(reads f)) = true) :
    FreeOf g l := by
  induction l with
  | nil => trivial
  | cons f l ih =>
    rw [List.all_cons, Bool.and_eq_true] at h
    exact ⟨free f (by simpa using h.1), ih h.2⟩

/-- A request of kinds 41 to 59 writes what its body writes. -/
theorem privileged_keeps {α : Type} {g : State → α} {body : State → Response} (hb : ∀ s, g (body s).state = g s)
    (h : Header) (s : State) : g (privileged h body s).state = g s := by
  unfold privileged
  split
  · exact hb s
  · rfl

/-- What a request other than RESTART answers in the state in which its block takes it. -/
def requestBody : Instr → State → Response
  | .claim h x w => claim h.link x w
  | .release h x => release h.link x
  | .yield h x on => yieldAxes h.link x on
  | .seize h x => seize h.link x
  | .withdrawWait h x => withdrawWait h.link x
  | .queryAuthority _ x => queryAuthority x
  | .setMode h x m => setMode h.link x m
  | .takeLive h x f => takeLive h.link x f
  | .enable h x => enable h.link x
  | .disable h x => disable h.link x
  | .storePreset h b q x g l ks => storePreset h.link b q x g l ks
  | .capture h b q x d sh => capture h.link b q x d sh
  | .appendKeyframe h b q k => appendKeyframe h.link b q k
  | .erasePreset h b q => erasePreset h.link b q
  | .queryPreset h b q f => queryPreset h.link b q f
  | .recallCue h b q f v c p => recallMove h.link b q f v c p
  | .go h id => go h.link id
  | .abort h id => abort h.link id
  | .speed h id v => speedMove h.link id v
  | .queryQueue _ => queryQueue
  | .queryLimits _ n => queryLimits n
  | .queryZones _ => queryZones
  | .queryJoystick _ m => queryJoystick m
  | .queryDirectory _ d => queryDirectory d
  | .queryCueList _ l => queryCueList l
  | .queryViews _ => fun s => accept s (.views s.settings.views)
  | .queryCache _ => fun s => accept s (.cache s.cache)
  | .queryBlend _ x => queryBlend x
  | .queryCoupling _ => fun s => accept s (.couplings s.couplings)
  | .queryTimecode _ => fun s => accept s (.timecode (timecodeReport s))
  | .queryBus _ => fun s => accept s (.bus (busReport s))
  | .queryFaults _ => fun s => accept s (.faults (faultsReport s))
  | .status h => status h.link
  | .setReport h n => setReport h.link n
  | .releaseClear _ => releaseClear
  | .setProfile h m a d e g i => setProfile h.link m a d e g i
  | .setStaleLimit h m l => setStaleLimit h.link m l
  | .setView h v e d l k => setView h.link v e d l k
  | .purge h n => purge h.link n
  | .setFitted h x => privileged h (setFitted x)
  | .setLimits h a lo hi v c r f n => privileged h (setLimits a
      { softMin := lo, softMax := hi, vmax := v, amax := c, trimRange := r, followingLimit := f,
        followingPersistence := n })
  | .setZone h z e x bs => privileged h (setZone z e x bs)
  | .setBankEntry h d b k l fs => privileged h (setBankEntry d b k l fs)
  | .setCueEntry h l q v k r => privileged h (setCueEntry l q v k r)
  | .setCoupling h n e a b g => privileged h (setCoupling n e a b g)
  | .tcRun h => privileged h (setRun .running)
  | .tcStop h => privileged h (setRun .stopped)
  | .setTimecode h v => privileged h (setTimecode v)
  | .offsetTimecode h sg v => privileged h (offsetTimecode sg v)
  | .setRate h r => privileged h (setRate r)
  | .setBusConfig h r t sl => privileged h (setBusConfig r t sl)
  | .busStart h => privileged h busStart
  | .busStop h => privileged h busStop
  | .setFaultActions h a b => privileged h (setFaultActions a b)
  | .setFaultTimers h e t => privileged h (setFaultTimers e t)
  | .faultClear h x => privileged h (faultClear x)
  | .saveStore h => privileged h (saveStore h.link)
  | _ => fun s => refuse s .badArgument

/-- The part that an event takes once its counts have passed. -/
def eventPart : Instr → State → Emit
  | .joy _ m d => fun s => quiet (receiveJoy m d s)
  | .frameReceived _ m l => frameReceived m l
  | .frameLeavesQueue _ m => fun s => quiet (frameLeaves m s)
  | .powerOn _ => fun s => quiet (powerOn s)
  | .lowSupply _ => fun s => quiet (lowSupply s)
  | .resetPin _ => fun s => quiet (resetPin s)
  | .powerUpHoldEnd _ p => fun s => quiet (holdEnd p s)
  | .configurationLoad _ a => configurationLoad a
  | .estop _ => estopActivates
  | .genlockPulse _ => genlockPulse
  | .genlockLossEvent _ => genlockLoss
  | .frameStart _ w => frameStart w
  | .busSyncEdge _ w => busSyncEdge w
  | .busSyncLost _ => busSyncLost
  | .waitExpiry _ m => waitExpiry m
  | .staleEntry _ m => staleEntry m
  | .escalationExpiry _ => escalationExpiry
  | .stopTimerExpiry _ => stopTimerExpiry
  | .saveCompletion _ e => saveCompletion e
  | .estopInactive _ => fun s => quiet (setEstop false s)
  | .resetRelease _ => fun s => quiet (resetRelease s)
  | .saveMarkerWritten _ => fun s => quiet (markerWritten s)
  | _ => quiet

/-- The counts that pass before an event. -/
def eventTime : Instr → Nat
  | .joy dt _ _ | .frameReceived dt _ _ | .frameLeavesQueue dt _ | .powerOn dt | .lowSupply dt | .resetPin dt
  | .powerUpHoldEnd dt _ | .configurationLoad dt _ | .estop dt | .genlockPulse dt | .genlockLossEvent dt
  | .frameStart dt _ | .busSyncEdge dt _ | .busSyncLost dt | .waitExpiry dt _ | .staleEntry dt _
  | .escalationExpiry dt | .stopTimerExpiry dt | .saveCompletion dt _ | .estopInactive dt
  | .resetRelease dt | .saveMarkerWritten dt => dt
  | _ => 0

/-- A request other than RESTART is answered by its body. -/
theorem exec_eq_request {i : Instr} {h : Header} (hi : requestHeader i = some h) (hr : isReset i = false)
    (s : State) : exec i s = request h i.unstamped (requestBody i) s := by
  cases i <;> simp only [requestHeader, Option.some.injEq, reduceCtorEq] at hi <;> subst hi
  case restart => cases hr
  all_goals rfl

/-- A command that is no request is the event of its part. -/
theorem exec_eq_event {i : Instr} (hi : requestHeader i = none) (s : State) :
    exec i s = event (eventTime i) (eventPart i) s := by
  cases i <;> simp only [requestHeader, reduceCtorEq] at hi
  all_goals rfl

section Keeps
variable {α : Type} {g : State → α}

/-- A request's body writes the fields of its footprint alone. -/
theorem requestBody_keeps (i : Instr) (hg : FreeOf g (footprint i)) (s : State) :
    g (requestBody i s).state = g s := by
  cases i <;> simp only [requestBody, footprint] at hg ⊢
  case claim | release | yield | seize | withdrawWait =>
    obtain ⟨hq, hb, ha, _⟩ := hg
    exact authorityRequest_keeps ⟨hq⟩ hb ha _ _ _ s
  case queryAuthority => exact congrArg g (queryAuthority_same _ s)
  case setMode | takeLive => obtain ⟨hq, hb, _⟩ := hg; exact modeRequest_keeps ⟨hq⟩ hb _ _ _ _ s
  case enable => obtain ⟨hd, _⟩ := hg; exact enable_keeps hd _ _ s
  case disable => obtain ⟨hd, _⟩ := hg; exact disable_keeps hd _ _ s
  case storePreset => obtain ⟨hc, ht, _⟩ := hg; exact storePreset_keeps hc ht _ _ _ _ _ _ _ s
  case capture => obtain ⟨hc, ht, _⟩ := hg; exact capture_keeps hc ht _ _ _ _ _ _ s
  case appendKeyframe => obtain ⟨hc, ht, _⟩ := hg; exact appendKeyframe_keeps hc ht _ _ _ _ s
  case erasePreset => obtain ⟨hc, ht, _⟩ := hg; exact erasePreset_keeps hc ht _ _ _ s
  case queryPreset => obtain ⟨hc, _⟩ := hg; exact queryPreset_keeps hc _ _ _ _ s
  case recallCue => obtain ⟨hq, hb, hn, hc, _⟩ := hg; exact recall_keeps ⟨hq⟩ hb hn hc _ _ _ _ _ _ _ s
  case go => obtain ⟨hq, _⟩ := hg; exact go_keeps ⟨hq⟩ _ _ s
  case abort => obtain ⟨hq, hb, _⟩ := hg; exact abort_keeps ⟨hq⟩ hb _ _ s
  case speed => obtain ⟨hq, _⟩ := hg; exact speedMove_keeps ⟨hq⟩ _ _ _ s
  case queryQueue => obtain ⟨hf, _⟩ := hg; exact queryQueue_keeps hf s
  case queryLimits => exact congrArg g (queryLimits_same _ s)
  case queryZones => obtain ⟨hf, _⟩ := hg; exact queryZones_keeps hf s
  case queryJoystick => exact congrArg g (queryJoystick_same _ s)
  case queryDirectory => exact congrArg g (queryDirectory_same _ s)
  case queryCueList => exact congrArg g (queryCueList_same _ s)
  case queryBlend => obtain ⟨hf, _⟩ := hg; exact queryBlend_keeps hf _ s
  case status => obtain ⟨hp, _⟩ := hg; exact hp s _
  case setReport => obtain ⟨hp, _⟩ := hg; exact setReport_keeps hp _ _ s
  case releaseClear => obtain ⟨hd, hf, _⟩ := hg; exact releaseClear_keeps hd hf s
  case setProfile => obtain ⟨hs, _⟩ := hg; exact setProfile_keeps hs _ _ _ _ _ _ _ s
  case setStaleLimit =>
    obtain ⟨hq, hb, hd, hf, hj, hs, _⟩ := hg
    exact setStaleLimit_keeps ⟨⟨hq⟩, hb, hd, hf⟩ hj hs _ _ _ s
  case setView => obtain ⟨hs, _⟩ := hg; exact setView_keeps hs _ _ _ _ _ _ s
  case purge => obtain ⟨hc, _⟩ := hg; exact purge_keeps hc _ _ s
  case setFitted => obtain ⟨hs, ha, _⟩ := hg; exact privileged_keeps (setFitted_keeps hs ha _) _ s
  case setLimits => obtain ⟨hs, hb, hd, _⟩ := hg; exact privileged_keeps (setLimits_keeps hs hb hd _ _) _ s
  case setZone => obtain ⟨hs, ha, _⟩ := hg; exact privileged_keeps (setZone_keeps hs ha _ _ _ _) _ s
  case setBankEntry => obtain ⟨ht, _⟩ := hg; exact privileged_keeps (setBankEntry_keeps ht _ _ _ _ _) _ s
  case setCueEntry => obtain ⟨ht, _⟩ := hg; exact privileged_keeps (setCueEntry_keeps ht _ _ _ _ _) _ s
  case setCoupling => obtain ⟨hb, hc, _⟩ := hg; exact privileged_keeps (setCoupling_keeps hb hc _ _ _ _ _) _ s
  case tcRun | tcStop => obtain ⟨ht, _⟩ := hg; exact privileged_keeps (setRun_keeps ht _) _ s
  case setTimecode => obtain ⟨hq, ht, _⟩ := hg; exact privileged_keeps (setTimecode_keeps ⟨hq⟩ ht _) _ s
  case offsetTimecode => obtain ⟨hq, ht, _⟩ := hg; exact privileged_keeps (offsetTimecode_keeps ⟨hq⟩ ht _ _) _ s
  case setRate => obtain ⟨hq, hs, ht, _⟩ := hg; exact privileged_keeps (setRate_keeps ⟨hq⟩ hs ht _) _ s
  case setBusConfig => obtain ⟨hs, _⟩ := hg; exact privileged_keeps (setBusConfig_keeps hs _ _ _) _ s
  case busStart => obtain ⟨hd, _⟩ := hg; exact privileged_keeps (busStart_keeps hd) _ s
  case busStop => obtain ⟨hd, _⟩ := hg; exact privileged_keeps (busStop_keeps hd) _ s
  case setFaultActions => obtain ⟨hs, hf, _⟩ := hg; exact privileged_keeps (setFaultActions_keeps hs hf _ _) _ s
  case setFaultTimers => obtain ⟨hs, _⟩ := hg; exact privileged_keeps (setFaultTimers_keeps hs _ _) _ s
  case faultClear => obtain ⟨hf, _⟩ := hg; exact privileged_keeps (faultClear_keeps hf _) _ s
  case saveStore => obtain ⟨hv, _⟩ := hg; exact privileged_keeps (saveStore_keeps hv _) _ s
  all_goals rfl

/-- The part of an event other than a reset writes the fields of its footprint alone. -/
theorem eventPart_keeps {i : Instr} (hr : isReset i = false) (hg : FreeOf g (footprint i)) (s : State) :
    g (eventPart i s).state = g s := by
  cases i <;> simp only [eventPart, footprint] at hg ⊢
  case joy => obtain ⟨hj, hp, _⟩ := hg; exact receiveJoy_keeps hj hp _ _ s
  case frameReceived =>
    obtain ⟨hq, hb, hd, hf, hj, hp, _⟩ := hg
    exact frameReceived_keeps ⟨⟨hq⟩, hb, hd, hf⟩ hj hp _ _ s
  case frameLeavesQueue => obtain ⟨hf, hp, _⟩ := hg; exact (hf _ _).trans (hp s _)
  case powerUpHoldEnd => obtain ⟨hu, _⟩ := hg; exact holdEnd_keeps hu _ s
  case configurationLoad =>
    obtain ⟨hq, hb, hd, hf, hu, hc, hp, hs, ht, hj, hm, _⟩ := hg
    exact configurationLoad_keeps ⟨⟨hq⟩, hb, hd, hf⟩ hu hc hp hs ht hj hm _ s
  case estop => obtain ⟨hq, hb, hd, hf, _⟩ := hg; exact estopActivates_keeps ⟨⟨hq⟩, hb, hd, hf⟩ s
  case genlockPulse => obtain ⟨hq, hb, hd, hf, ht, _⟩ := hg; exact genlockPulse_keeps ⟨⟨hq⟩, hb, hd, hf⟩ ht s
  case genlockLossEvent => obtain ⟨hq, hb, hd, hf, ht, _⟩ := hg; exact genlockLoss_keeps ⟨⟨hq⟩, hb, hd, hf⟩ ht s
  case frameStart =>
    obtain ⟨hq, hb, hd, hf, h1, h2, h3, hp, _⟩ := hg
    exact frameStart_keeps ⟨⟨⟨hq⟩, hb, hd, hf⟩, h1, h2, h3, hp⟩ _ s
  case busSyncEdge =>
    obtain ⟨hq, hb, hd, hf, h1, h2, h3, hp, _⟩ := hg
    exact busSyncEdge_keeps ⟨⟨⟨hq⟩, hb, hd, hf⟩, h1, h2, h3, hp⟩ _ s
  case busSyncLost => obtain ⟨hq, hb, hd, hf, _⟩ := hg; exact busSyncLost_keeps ⟨⟨hq⟩, hb, hd, hf⟩ s
  case waitExpiry => obtain ⟨ha, _⟩ := hg; exact waitExpiry_keeps ha _ s
  case staleEntry => obtain ⟨hq, hb, hd, hf, hj, _⟩ := hg; exact staleEntry_keeps ⟨⟨hq⟩, hb, hd, hf⟩ hj _ s
  case escalationExpiry => obtain ⟨hq, hb, hd, hf, _⟩ := hg; exact escalationExpiry_keeps ⟨⟨hq⟩, hb, hd, hf⟩ s
  case stopTimerExpiry => obtain ⟨hq, hb, hd, hf, _⟩ := hg; exact stopTimerExpiry_keeps ⟨⟨hq⟩, hb, hd, hf⟩ s
  case saveCompletion => obtain ⟨hm, hf, hv, _⟩ := hg; exact saveCompletion_keeps hm hf hv _ s
  case estopInactive => obtain ⟨hf, _⟩ := hg; exact hf s _
  case resetRelease => obtain ⟨hu, _⟩ := hg; exact resetRelease_keeps hu s
  case saveMarkerWritten => obtain ⟨hm, _⟩ := hg; exact markerWritten_keeps hm s
  case powerOn | lowSupply | resetPin => cases hr
  all_goals rfl

end Keeps

/-! ## Laws through a step -/

/-- A law that neither time nor the traffic of a port breaks: of a port it looks at the link state alone. -/
structure Calm (P : State → Prop) : Prop where
  time : ∀ dt s, P s → P (elapse dt s)
  port : ∀ s m p, p.link = (s.ports.get m).link → P s → P (s.setPort m p)

theorem Steady.calm {P : State → Prop} (st : Steady P) : Calm P := ⟨st.time, fun _ _ _ _ h => st.ports _ _ h⟩

section Calm
variable {P : State → Prop} {s t : State}

theorem Calm.placeNotices (c : Calm P) (posts : List Post) {s : State} (h : P s) : P (placeNotices posts s) := by
  unfold Machine.placeNotices
  induction posts generalizing s with
  | nil => exact h
  | cons p posts ih => exact ih (c.port _ _ _ (Port.take_keeps _ _).1 h)

theorem Calm.answer (c : Calm P) (h : Header) (r : Response) (hr : P r.state) : P (answer h r) :=
  c.placeNotices _ (c.port r.state _ _ rfl hr)

theorem Calm.settle (c : Calm P) (e : Emit) (h : P e.state) : P e.settle := c.placeNotices _ h

theorem Calm.receiveRequest (c : Calm P) (m : Master) (i : Instr) (h : P s) : P (receiveRequest m i s) := by
  unfold Machine.receiveRequest
  simp only
  split <;> exact c.port _ _ _ rfl h

/-- A law that a request's taking keeps at an OPEN port is kept by the request. -/
theorem Calm.handed_opened (c : Calm P) {h : Header} {i : Instr} {act : State → State}
    (ha : ∀ s, (s.ports.get h.link).link = .opened → P s → P (act s)) (hs : P s)
    (e : handed h i act s = .next t) : P t := by
  cases ht : takenIn h i s with
  | some s0 =>
    rw [handed_taken ht] at e
    injection e with e
    subst e
    obtain ⟨p, h0, hlink, _, _, hp⟩ := takenIn_some ht
    rw [h0]
    refine ha _ ?_ (c.port _ _ _ ?_ (c.time _ _ hs))
    · rw [State.setPort_ports, PerMaster.get_set_same, hlink]
    · rw [elapse_ports]
      rcases hp with rfl | rfl <;> rfl
  | none =>
    rcases handed_waits (act := act) ht with h' | ⟨_, h'⟩
    · rw [h'] at e
      injection e with e
      subst e
      exact c.time _ _ hs
    · rw [h'] at e
      injection e with e
      subst e
      exact c.receiveRequest _ _ (c.time _ _ hs)

theorem Calm.handed (c : Calm P) {h : Header} {i : Instr} {act : State → State} (ha : ∀ s, P s → P (act s))
    (hs : P s) (e : handed h i act s = .next t) : P t := c.handed_opened (fun s _ hs => ha s hs) hs e

theorem Calm.request_opened (c : Calm P) {h : Header} {i : Instr} {body : State → Response}
    (hb : ∀ s, (s.ports.get h.link).link = .opened → P s → P (body s).state) (hs : P s)
    (e : request h i body s = .next t) : P t :=
  c.handed_opened (fun s' ho hs' => c.answer _ _ (hb s' ho hs')) hs e

theorem Calm.request (c : Calm P) {h : Header} {i : Instr} {body : State → Response}
    (hb : ∀ s, P s → P (body s).state) (hs : P s) (e : request h i body s = .next t) : P t :=
  c.request_opened (fun s _ hs => hb s hs) hs e

theorem Calm.event (c : Calm P) {dt : Nat} {f : State → Emit} (hf : ∀ s, P s → P (f s).state)
    (hs : P s) (e : event dt f s = .next t) : P t := by
  rw [event_next] at e
  injection e with e
  subst e
  exact c.settle _ (hf _ (c.time _ _ hs))

/-- A law that reads none of the fields a command can write is kept by the command. -/
theorem Calm.exec_disjoint (c : Calm P) {reads : Field → Bool} (free : ∀ f, reads f = false → f.FreeIn P)
    {i : Instr} (hr : isReset i = false) (hd : (footprint i).all (fun f => !(reads f)) = true) (hs : P s)
    (e : exec i s = .next t) : P t := by
  have hfree : FreeOf P (footprint i) := FreeOf.of_disjoint free hd
  cases hi : requestHeader i with
  | some h =>
    rw [exec_eq_request hi hr] at e
    exact c.request (fun s' hs' => by rw [requestBody_keeps i hfree]; exact hs') hs e
  | none =>
    rw [exec_eq_event hi] at e
    exact c.event (fun s' hs' => by rw [eventPart_keeps hr hfree]; exact hs') hs e

/-- A law that every command keeps is kept by a step. -/
theorem step_keeps (time : ∀ dt s, P s → P (elapse dt s)) (pending : ∀ s l, P s → P { s with pending := l })
    (hexec : ∀ i s t, P s → exec i s = .next t → P t) (hs : P s) (e : step s = .next t) : P t := by
  unfold step at e
  split at e
  · injection e with e
    subst e
    exact time _ _ hs
  · exact hexec _ _ _ (pending _ _ hs) e

end Calm

/-! ## Resets -/

/-- RESTART answers a refusal or takes a reset. -/
theorem restart_cases (h : Header) (s : State) :
    (∃ c, restart h s = answer h (refuse s c)) ∨
      restart h s = takeReset .restart (answer h (accept s .none)) := by
  unfold restart
  split
  · exact .inl ⟨_, rfl⟩
  · exact .inr rfl

/-- A law that a reset keeps in every state that has it is kept by the commands that take one. -/
theorem Calm.exec_reset {P : State → Prop} (c : Calm P) (levels : ∀ s u v, P s → P (setLevels u v s))
    (hr : ∀ k s, P s → P (takeReset k s)) {i : Instr} (hi : isReset i = true) {s t : State} (hs : P s)
    (e : exec i s = .next t) : P t := by
  cases i <;> simp only [isReset, Bool.false_eq_true] at hi
  case powerOn => exact c.event (f := fun s => quiet (powerOn s)) (fun s hs => hr _ _ (levels _ _ _ hs)) hs e
  case lowSupply => exact c.event (f := fun s => quiet (lowSupply s)) (fun s hs => hr _ _ (levels _ _ _ hs)) hs e
  case resetPin => exact c.event (f := fun s => quiet (resetPin s)) (fun s hs => hr _ _ (levels _ _ _ hs)) hs e
  case restart h =>
    refine c.handed (fun s hs => ?_) hs e
    rcases restart_cases h s with ⟨code, he⟩ | he
    · rw [he]; exact c.answer _ _ hs
    · rw [he]; exact hr _ _ (c.answer _ _ hs)


/-! ## The configuration load -/

/-- What CONFIGURATION_LOAD can do: nothing out of its phase; otherwise it reaches READY with the built-in defaults,
with the values of a good image, or with the record of CONFIG_INVALID. -/
theorem configurationLoad_cases (a : MemoryAnswer) (s : State) :
    configurationLoad a s = quiet s ∨
      configurationLoad a s = reachReady quiet (recordLoad .defaults false (takeDefaults s)) ∨
      ∃ i m,
        (imageGood s i = true ∧
          configurationLoad a s = reachReady quiet (recordLoad .memory false (takeImage i { s with memory := m }))) ∨
        configurationLoad a s = loadInvalid i { s with memory := m } := by
  have himage : ∀ i m, configurationLoad a s = loadImage i { s with memory := m } →
      (imageGood s i = true ∧
        configurationLoad a s = reachReady quiet (recordLoad .memory false (takeImage i { s with memory := m }))) ∨
      configurationLoad a s = loadInvalid i { s with memory := m } := by
    intro i m he
    rw [he]
    unfold loadImage
    split
    · exact .inl ⟨‹_›, rfl⟩
    · exact .inr rfl
  by_cases hp : s.startup.phase = .loading
  · refine .inr ?_
    cases a with
    | silent => exact .inl (if_pos hp)
    | asHeld => exact .inr ⟨s.memory, s.memory, himage _ _ (if_pos hp)⟩
    | holding i => exact .inr ⟨i, i, himage _ _ (if_pos hp)⟩
  · exact .inl (if_neg hp)

/-- READY opens the ports in use. -/
theorem openPorts_port (s : State) (m : Master) : (openPorts s).ports.get m =
    if (linksInUse s).contains m then { s.ports.get m with link := .opened } else s.ports.get m :=
  PerMaster.get_ofFn _ m

/-- What READY leaves: what its waiting actions and a raise of ESTOP leave of the state with its ports open. -/
theorem reachReady_law {P : State → Prop} {w : State → Emit} {s : State}
    (hraise : ∀ s, P s → P (raise .estop RaiseInfo.bare s).state) (hw : ∀ s, P s → P (w s).state)
    (h : P (openPorts (setPhase .ready (s.setCache [])))) : P (reachReady w s).state := by
  unfold reachReady
  simp only [andThen_state]
  exact whenever_keeps (P := P) hraise _ (hw _ h)

/-- What the configuration load leaves, from what each of its three loads brings to READY. -/
theorem configurationLoad_law {P : State → Prop} {a : MemoryAnswer} {s : State}
    (hraise : ∀ s, P s → P (raise .estop RaiseInfo.bare s).state)
    (hacts : ∀ b s, P s → P (raiseActions .configInvalid RaiseInfo.bare b s).state) (hs : P s)
    (hdefaults : P (openPorts (setPhase .ready ((recordLoad .defaults false (takeDefaults s)).setCache []))))
    (himage : ∀ i m, imageGood s i = true → P (openPorts (setPhase .ready
      ((recordLoad .memory false (takeImage i { s with memory := m })).setCache []))))
    (hinvalid : ∀ i m, P (openPorts (setPhase .ready ((raiseRecord .configInvalid RaiseInfo.bare
      (recordLoad .invalid (ConfigImage.marker i) (takeDefaults { s with memory := m }))).setCache [])))) :
    P (configurationLoad a s).state := by
  rcases configurationLoad_cases a s with he | he | ⟨i, m, ⟨hgood, he⟩ | he⟩ <;> rw [he]
  · exact hs
  · exact reachReady_law hraise (fun _ h => h) hdefaults
  · exact reachReady_law hraise (fun _ h => h) (himage i m hgood)
  · exact reachReady_law hraise (hacts _) (hinvalid i m)

end Sys2Proof.Machine
end

section
/-! PROOFS. What the link ports, the resolution cache and the preset store keep through every step (O57). -/

namespace Sys2Proof.Machine

/-! ## The ports (R156, R163) -/

theorem Port.bounded_reset : Port.reset.bounded := by unfold Port.bounded; decide

/-- A notice joins within 8 frames and 4 notices. -/
theorem Port.bounded_take {p : Port} (n : Notice) (h : p.bounded) : (p.take n).bounded := by
  obtain ⟨hrx, htx, hn, hbad, hover⟩ := h
  obtain ⟨_, hb, ho, hr, _⟩ := p.take_keeps n
  unfold Port.bounded
  rw [hb, ho, hr]
  rcases p.take_tx n with htake | ⟨_, hheld, hlen, htake⟩
  · rw [htake]
    exact ⟨hrx, htx, hn, hbad, hover⟩
  · rw [htake, noticesHeld_append, List.length_append]
    exact ⟨hrx, hlen, hheld, hbad, hover⟩

/-- A reply is no notice. -/
theorem noticesHeld_append_reply (l : List LinkFrame) (tag : Octet) (r : Reply) :
    noticesHeld (l ++ [.reply tag r]) = noticesHeld l := by
  simp [noticesHeld, LinkFrame.isNotice]

/-- What the bounds of a port look at. -/
def Port.traffic (p : Port) : List Instr × List LinkFrame × Nat × Nat := (p.rx, p.tx, p.badRun, p.overrun)

theorem Port.bounded_of_traffic {p q : Port} (h : q.traffic = p.traffic) (hp : p.bounded) : q.bounded := by
  simp only [Port.traffic, Prod.mk.injEq] at h
  obtain ⟨hrx, htx, hbad, hover⟩ := h
  unfold Port.bounded
  rw [hrx, htx, hbad, hover]
  exact hp

theorem linkLaw_setPort {s : State} {m : Master} {p : Port} (h : linkLaw s) (hp : p.bounded) :
    linkLaw (s.setPort m p) := by
  intro n
  simp only [State.setPort_ports, PerMaster.get_set]
  split
  · exact hp
  · exact h n

theorem linkLaw_placeNotices {s : State} (posts : List Post) (h : linkLaw s) : linkLaw (placeNotices posts s) :=
  placeNotices_ports (fun _ n hp => Port.bounded_take n hp) posts h

theorem linkLaw_receiveRequest {s : State} (m : Master) (i : Instr) (h : linkLaw s) :
    linkLaw (receiveRequest m i s) := by
  obtain ⟨hrx, htx, hn, _, hover⟩ := h m
  unfold receiveRequest
  simp only
  split
  · refine linkLaw_setPort h ⟨?_, htx, hn, Nat.zero_le _, hover⟩
    rw [List.length_append]
    assumption
  · exact linkLaw_setPort h ⟨hrx, htx, hn, Nat.zero_le _, Nat.min_le_left _ _⟩

theorem linkLaw_elapse (dt : Nat) {s : State} (h : linkLaw s) : linkLaw (elapse dt s) := by
  intro m
  rw [elapse_ports]
  exact h m

/-- The field that the ports are. -/
def readsPorts : Field → Bool
  | .ports => true
  | _ => false

/-- No request's body touches the frames and the counts of a port: STATUS and SET REPORT write the other items. -/
theorem requestBody_traffic (i : Instr) (s : State) (m : Master) :
    ((requestBody i s).state.ports.get m).traffic = (s.ports.get m).traffic := by
  have hset : ∀ (t : State) (k : Master) (p : Port), p.traffic = (t.ports.get k).traffic →
      ((t.setPort k p).ports.get m).traffic = (t.ports.get m).traffic := by
    intro t k p hp
    rw [State.setPort_ports, PerMaster.get_set]
    split
    · rename_i hm
      rw [hm, hp]
    · rfl
  have hports : ∀ i, (footprint i).all (fun f => !(readsPorts f)) = true →
      ((requestBody i s).state.ports.get m).traffic = (s.ports.get m).traffic := by
    intro i hi
    have hfree : FreeOf State.ports (footprint i) :=
      FreeOf.of_disjoint (reads := readsPorts) (fun f hf => by
        cases f <;> first | exact fun _ _ => rfl | cases hf) hi
    rw [requestBody_keeps i hfree]
  cases i
  case status h => exact hset _ _ _ rfl
  case setReport h n =>
    show ((setReport h.link n s).state.ports.get m).traffic = _
    unfold setReport
    split
    · rfl
    · exact hset _ _ _ rfl
  case joy | frameReceived | frameLeavesQueue | configurationLoad | frameStart | busSyncEdge => rfl
  all_goals exact hports _ rfl

/-- The reply finds its place where fewer than 8 frames wait, and the notices find theirs behind it. -/
theorem linkLaw_answer {h : Header} {r : Response} {s : State}
    (ht : ∀ m, (r.state.ports.get m).traffic = (s.ports.get m).traffic) (hs : linkLaw s)
    (hroom : (s.ports.get h.link).tx.length < 8) : linkLaw (answer h r) := by
  have hr : linkLaw r.state := fun m => Port.bounded_of_traffic (ht m) (hs m)
  refine linkLaw_placeNotices _ (linkLaw_setPort hr ?_)
  obtain ⟨hrx, _, hn, hbad, hover⟩ := hr h.link
  have htx : (r.state.ports.get h.link).tx = (s.ports.get h.link).tx := congrArg (fun t => t.2.1) (ht h.link)
  refine ⟨hrx, ?_, ?_, hbad, hover⟩
  · rw [List.length_append, htx]
    exact hroom
  · rw [noticesHeld_append_reply]
    exact hn

/-- A request keeps the bounds where its taking keeps them from a port with a free place. -/
theorem linkLaw_handed {h : Header} {i : Instr} {act : State → State} {s t : State}
    (ha : ∀ s, linkLaw s → (s.ports.get h.link).tx.length < 8 → linkLaw (act s)) (hs : linkLaw s)
    (e : handed h i act s = .next t) : linkLaw t := by
  cases ht : takenIn h i s with
  | some s0 =>
    rw [handed_taken ht] at e
    injection e with e
    subst e
    obtain ⟨p, h0, _, hroom, htx, hp⟩ := takenIn_some ht
    obtain ⟨hrx, hlen, hn, hbad, hover⟩ := hs h.link
    have hp' : p.bounded := by
      rcases hp with rfl | rfl
      · exact ⟨Nat.le_trans (by simp) hrx, hlen, hn, hbad, hover⟩
      · exact ⟨hrx, hlen, hn, Nat.zero_le _, hover⟩
    rw [h0]
    refine ha _ (linkLaw_setPort (linkLaw_elapse _ hs) hp') ?_
    rw [State.setPort_ports, PerMaster.get_set_same]
    exact hroom
  | none =>
    rcases handed_waits (act := act) ht with h' | ⟨_, h'⟩
    · rw [h'] at e
      injection e with e
      subst e
      exact linkLaw_elapse _ hs
    · rw [h'] at e
      injection e with e
      subst e
      exact linkLaw_receiveRequest _ _ (linkLaw_elapse _ hs)

/-- The bounds of the ports look at no other field. -/
theorem linkLaw_free : ∀ f : Field, readsPorts f = false → f.FreeIn linkLaw := fun f hf => by
  cases f <;> first | exact fun _ _ => rfl | cases hf

theorem linkLaw_offFaults : OffFaults linkLaw :=
  ⟨⟨fun _ _ => rfl⟩, fun _ _ => rfl, fun _ _ => rfl, fun _ _ => rfl⟩

theorem linkLaw_raise (src : FaultSource) (info : RaiseInfo) (s : State) (h : linkLaw s) :
    linkLaw (raise src info s).state := by
  rw [raise_keeps linkLaw_offFaults]
  exact h

theorem linkLaw_frames : FrameLaw linkLaw where
  raise := linkLaw_raise
  released s h := by rw [enterReleased_keeps linkLaw_offFaults]; exact h
  queue _ _ _ h := h
  plain _ _ _ _ _ h := h
  report m s h := by
    unfold countReport
    simp only
    split
    · exact h
    · split <;> exact linkLaw_setPort h (h m)
  drives _ _ _ h := h
  counts _ _ _ _ h := h

theorem linkLaw_sync : SyncLaw linkLaw := ⟨fun _ _ h => h, fun _ _ _ _ _ h => h⟩

theorem Port.bounded_badRun {p : Port} {n : Nat} (h : p.bounded) (hn : n ≤ 8) :
    { p with badRun := n }.bounded := by
  obtain ⟨hrx, htx, hheld, _, hover⟩ := h
  exact ⟨hrx, htx, hheld, hn, hover⟩

theorem linkLaw_frameReceived (m : Master) (l : List Octet) (s : State) (h : linkLaw s) :
    linkLaw (frameReceived m l s).state := by
  have hbad : ∀ n, n ≤ 8 → linkLaw (setBadRun m n s) := fun n hn => linkLaw_setPort h (Port.bounded_badRun (h m) hn)
  unfold frameReceived
  split
  · exact h
  · exact h
  · unfold judgeFrame
    split
    · exact whenever_keeps (P := linkLaw) (linkLaw_raise _ _) _ (hbad _ (Nat.min_le_left _ _))
    · exact hbad 0 (Nat.zero_le _)
    · exact linkLaw_receiveRequest _ _ h

theorem Port.bounded_send (free : Nat → List Octet) {p : Port} (h : p.bounded) : (p.send free).bounded := by
  obtain ⟨hrx, htx, hn, hbad, hover⟩ := h
  unfold Port.send
  split
  · rename_i f rest _ hq
    rw [hq] at htx hn
    refine ⟨hrx, Nat.le_trans (Nat.le_succ _) htx, Nat.le_trans ?_ hn, hbad, hover⟩
    exact ((List.sublist_cons_self f rest).filter _).length_le
  · exact ⟨hrx, htx, hn, hbad, hover⟩

theorem linkLaw_takeReset (c : ResetCause) (s : State) : linkLaw (takeReset c s) := by
  intro m
  show ((PerMaster.fill Port.reset).get m).bounded
  rw [PerMaster.get_fill]
  exact Port.bounded_reset

/-- READY opens the ports and changes nothing else of them. -/
theorem linkLaw_openPorts {s : State} (h : linkLaw s) : linkLaw (openPorts s) := by
  intro m
  rw [openPorts_port]
  split
  · exact h m
  · exact h m

/-- Every command keeps the ports within their bounds. -/
theorem linkLaw_exec (i : Instr) (s t : State) (hs : linkLaw s) (e : exec i s = .next t) : linkLaw t := by
  have hevent : ∀ {dt : Nat} {f : State → Emit}, (∀ s, linkLaw s → linkLaw (f s).state) →
      event dt f s = .next t → linkLaw t := by
    intro dt f hf e
    rw [event_next] at e
    injection e with e
    subst e
    exact linkLaw_placeNotices _ (hf _ (linkLaw_elapse _ hs))
  cases hi : requestHeader i with
  | some h =>
    by_cases hr : isReset i = true
    · cases i <;> simp only [isReset, Bool.false_eq_true] at hr <;> simp only [requestHeader, reduceCtorEq] at hi
      case restart h' =>
        refine linkLaw_handed (h := h') (fun s hs hroom => ?_) hs e
        rcases restart_cases h' s with ⟨c, hc⟩ | hc
        · rw [hc]
          exact linkLaw_answer (fun _ => rfl) hs hroom
        · rw [hc]
          exact linkLaw_takeReset _ _
    · rw [exec_eq_request hi (by simpa using hr)] at e
      exact linkLaw_handed (fun s hs hroom => linkLaw_answer (requestBody_traffic i s) hs hroom) hs e
  | none =>
    rw [exec_eq_event hi] at e
    refine hevent (fun s hs => ?_) e
    cases i <;> try (simp only [requestHeader, reduceCtorEq] at hi)
    case joy m d =>
      show linkLaw (receiveJoy m d s)
      unfold receiveJoy
      split
      · exact hs
      · exact linkLaw_setPort hs (Port.bounded_badRun (hs m) (Nat.zero_le _))
    case frameReceived m l => exact linkLaw_frameReceived m l s hs
    case frameLeavesQueue m => exact linkLaw_setPort hs (Port.bounded_send _ (hs m))
    case powerOn | lowSupply | resetPin => exact linkLaw_takeReset _ _
    case configurationLoad =>
      exact configurationLoad_law (linkLaw_raise _ _)
        (fun b s h => by rw [raiseActions_keeps linkLaw_offFaults]; exact h) hs (linkLaw_openPorts hs)
        (fun _ _ _ => linkLaw_openPorts hs)
        (fun i m => linkLaw_openPorts (by
          show linkLaw (raiseRecord _ _ _)
          rw [raiseRecord_keeps linkLaw_offFaults]
          exact hs))
    case frameStart w => exact linkLaw_frames.frameStart linkLaw_sync w hs
    case busSyncEdge w => exact linkLaw_frames.busSyncEdge linkLaw_sync w hs
    all_goals
      exact (eventPart_keeps (g := linkLaw) rfl (FreeOf.of_disjoint linkLaw_free rfl) s).mpr hs

end Sys2Proof.Machine
end

section
/-! PROOFS. The resolution cache and the preset store through every step (O57). -/

namespace Sys2Proof.Machine

/-! ## Resolution (R63 to R69) -/

/-- What a resolution can do: a fault that leaves the state, a hit that promotes its entry, or a walk that inserts
one. -/
theorem resolve_cases (m : Master) (b p : Nat) (s : State) :
    (∃ c, resolve m b p s = (s, .fault c)) ∨
    (∃ e ∈ s.cache, s.cache.find? (CacheEntry.isFor (viewOf s m).directory b p) = some e ∧
      resolve m b p s = (s.setCache (promote e s.cache), .found { record := e.record, locked := e.locked })) ∨
    ∃ r, walk s (viewOf s m) b p = .found r ∧
      s.cache.find? (CacheEntry.isFor (viewOf s m).directory b p) = none ∧
      resolve m b p s = (s.setCache (insertEntry
        { directory := (viewOf s m).directory, bank := b, pos := p, record := r.record, locked := r.locked }
        s.cache), .found r) := by
  unfold resolve
  simp only
  split
  · cases hf : s.cache.find? (CacheEntry.isFor (viewOf s m).directory b p) with
    | some e => exact .inr (.inl ⟨e, List.mem_of_find?_eq_some hf, rfl, rfl⟩)
    | none =>
      cases hw : walk s (viewOf s m) b p with
      | fault c => exact .inl ⟨c, rfl⟩
      | found r => exact .inr (.inr ⟨r, rfl, rfl, rfl⟩)
  · exact .inl ⟨_, rfl⟩

theorem cacheEntry_key_of_isFor {d b p : Nat} {e : CacheEntry} (h : e.isFor d b p = true) : e.key = (d, b, p) := by
  simp only [CacheEntry.isFor, Bool.and_eq_true, beq_iff_eq] at h
  obtain ⟨⟨hd, hb⟩, hp⟩ := h
  rw [CacheEntry.key, hd, hb, hp]

theorem cacheEntry_isFor_key (e : CacheEntry) : e.isFor e.directory e.bank e.pos = true := by
  simp [CacheEntry.isFor]

/-- A hit moves an entry of the cache to the front. -/
theorem promote_perm {e : CacheEntry} {c : List CacheEntry} (h : e ∈ c) : (promote e c).Perm c :=
  (List.perm_cons_erase h).symm

theorem cacheLaw_resolve (m : Master) (b p : Nat) (s : State) (h : cacheLaw s) : cacheLaw (resolve m b p s).1 := by
  obtain ⟨hlen, hkeys⟩ := h
  rcases resolve_cases m b p s with ⟨c, he⟩ | ⟨e, hmem, _, he⟩ | ⟨r, _, hnone, he⟩ <;> rw [he]
  · exact ⟨hlen, hkeys⟩
  · have hperm := promote_perm hmem
    exact ⟨by rw [State.setCache_cache, hperm.length_eq]; exact hlen,
      (hperm.map CacheEntry.key).nodup_iff.2 hkeys⟩
  · refine ⟨?_, ?_⟩
    · simp only [State.setCache_cache, insertEntry, List.length_cons, List.length_take]
      omega
    · simp only [State.setCache_cache, insertEntry, List.map_cons, List.nodup_cons]
      refine ⟨fun hin => ?_, hkeys.sublist ((List.take_sublist 7 s.cache).map _)⟩
      obtain ⟨e, he, hkey⟩ := List.mem_map.1 hin
      have hfor := List.find?_eq_none.1 hnone e (List.mem_of_mem_take he)
      simp only [CacheEntry.key, Prod.mk.injEq] at hkey
      obtain ⟨hd, hb, hp⟩ := hkey
      exact hfor (by simp [CacheEntry.isFor, hd, hb, hp])

/-- Every cue entry of a lawful store reads as one that names a record. -/
theorem cueAt_record_lt {s : State} (h : storeLaw s) (l p : Nat) : (cueAt s l p).record < 256 := by
  obtain ⟨_, _, _, hcues, _⟩ := h
  have hread : ∀ (k : Nat) (t : Sparse CueEntry), (∀ e ∈ t, e.2.record < 256) →
      (readAt CueEntry.cleared k t).record < 256 := by
    intro k t ht
    induction t with
    | nil => exact Nat.zero_lt_succ _
    | cons e t ih =>
      obtain ⟨j, v⟩ := e
      simp only [readAt]
      split
      · exact ht (j, v) (by simp)
      · exact ih fun e he => ht e (by simp [he])
  exact hread _ _ hcues

/-- A walk ends at a record 0 to 255. -/
theorem walk_record_lt {s : State} {v : View} {b p : Nat} {r : Resolved} (h : storeLaw s)
    (hw : walk s v b p = .found r) : r.record < 256 := by
  unfold walk at hw
  split at hw
  · cases hw
  · split at hw
    · cases hw
    · split at hw
      · cases hw
        exact cueAt_record_lt h _ _
      · cases hw
    · split at hw
      · cases hw
      · split at hw
        · cases hw
        · cases hw
          exact Nat.lt_succ_of_le (Nat.le_of_not_lt ‹_›)

/-- A resolution keeps the store, and hands a record 0 to 255. -/
theorem storeLaw_resolve (m : Master) (b p : Nat) (s : State) (h : storeLaw s) :
    storeLaw (resolve m b p s).1 ∧ ∀ r, (resolve m b p s).2 = .found r → r.record < 256 := by
  obtain ⟨hr, hc, hb, hcues, hcache⟩ := h
  rcases resolve_cases m b p s with ⟨c, he⟩ | ⟨e, hmem, _, he⟩ | ⟨r, hwalk, _, he⟩ <;> rw [he]
  · exact ⟨⟨hr, hc, hb, hcues, hcache⟩, nofun⟩
  · refine ⟨⟨hr, hc, hb, hcues, fun e' he' => hcache e' ((promote_perm hmem).mem_iff.1 he')⟩, fun r hr => ?_⟩
    cases hr
    exact hcache e hmem
  · have hlt : r.record < 256 := walk_record_lt ⟨hr, hc, hb, hcues, hcache⟩ hwalk
    refine ⟨⟨hr, hc, hb, hcues, fun e' he' => ?_⟩, fun r' hr' => by cases hr'; exact hlt⟩
    rcases List.mem_cons.1 he' with rfl | he'
    · exact hlt
    · exact hcache e' (List.mem_of_mem_take he')

/-! ## Requests behind a resolution -/

/-- What an edit request can do: refuse before its resolution, refuse behind it, or write the record it found. -/
theorem edit_cases (m : Master) (b p : Nat) (a : Option RefusalCode) (own : State → Nat → Option RefusalCode)
    (w : State → Nat → Response) (s : State) :
    (∃ c, edit m b p a own w s = refuse s c) ∨ (∃ c, edit m b p a own w s = refuse (resolve m b p s).1 c) ∨
    ∃ r, (resolve m b p s).2 = .found r ∧ edit m b p a own w s = w (resolve m b p s).1 r.record := by
  unfold edit
  cases a with
  | some c => exact .inl ⟨c, rfl⟩
  | none =>
    rcases hres : resolve m b p s with ⟨s', res⟩
    cases res with
    | fault c => exact .inr (.inl ⟨c, rfl⟩)
    | found r =>
      simp only
      split
      · exact .inr (.inl ⟨_, rfl⟩)
      · split
        · exact .inr (.inl ⟨_, rfl⟩)
        · split
          · exact .inr (.inl ⟨_, rfl⟩)
          · split
            · exact .inr (.inl ⟨_, rfl⟩)
            · split
              · exact .inr (.inl ⟨_, rfl⟩)
              · exact .inr (.inr ⟨r, rfl, rfl⟩)

/-- An edit request keeps what its resolution and its write keep. -/
theorem edit_law {P : State → Prop} {m : Master} {b p : Nat} {a : Option RefusalCode}
    {own : State → Nat → Option RefusalCode} {w : State → Nat → Response} {s : State} (hs : P s)
    (hres : P (resolve m b p s).1)
    (hw : ∀ r, (resolve m b p s).2 = .found r → P (w (resolve m b p s).1 r.record).state) :
    P (edit m b p a own w s).state := by
  rcases edit_cases m b p a own w s with ⟨c, he⟩ | ⟨c, he⟩ | ⟨r, hr, he⟩ <;> rw [he]
  · exact hs
  · exact hres
  · exact hw r hr

theorem queryPreset_law {P : State → Prop} {m : Master} {b p n : Nat} {s : State} (hs : P s)
    (hres : P (resolve m b p s).1) : P (queryPreset m b p n s).state := by
  unfold queryPreset
  split
  · rcases hr : resolve m b p s with ⟨s', res⟩
    rw [hr] at hres
    cases res with
    | fault c => exact hres
    | found r =>
      simp only
      split <;> exact hres
  · exact hs

theorem recallMove_law {P : State → Prop} {m : Master} {b p : Nat} {f : FilterArg} {v : Nat} {c : CueArg} {pol : Nat}
    {s : State} (hs : P s) (hres : P (resolve m b p s).1)
    (hw : ∀ n x k q s, P s → P (recallResolved m n x v k q s).state) :
    P (recallMove m b p f v c pol s).state := by
  unfold recallMove
  split
  · exact hs
  · rcases hr : resolve m b p s with ⟨s', res⟩
    rw [hr] at hres
    cases res with
    | fault c => exact hres
    | found r => exact hw _ _ _ _ _ hres

/-- Behind its resolution a RECALL writes the queue, the blend records and the id counter alone. -/
theorem recallResolved_keeps {α : Type} {g : State → α} (o : OffQueue g) (hb : ∀ s x, g { s with blend := x } = g s)
    (hn : ∀ s x, g { s with nextMoveId := x } = g s) (m : Master) (n : Nat) (x : AxisSet) (v : Nat) (c : Cue)
    (p : Policy) (s : State) : g (recallResolved m n x v c p s).state = g s := by
  unfold recallResolved recallAccepted
  split
  · rfl
  · have happend : ∀ (t : State) (q : List Move) (k : Nat), g { t with queue := q, nextMoveId := k } = g t :=
      fun t q k => (hn { t with queue := q } k).trans (o.queue t q)
    exact (happend _ _ _).trans (cutMoves_keeps o hb _ _ _)

/-! ## The cache (R67, R72) -/

/-- The field that the cache is. -/
def readsCache : Field → Bool
  | .cache => true
  | _ => false

theorem cacheLaw_free : ∀ f : Field, readsCache f = false → f.FreeIn cacheLaw := fun f hf => by
  cases f <;> first | exact fun _ _ => rfl | cases hf

theorem cacheLaw_offFaults : OffFaults cacheLaw :=
  ⟨⟨fun _ _ => rfl⟩, fun _ _ => rfl, fun _ _ => rfl, fun _ _ => rfl⟩

theorem cacheLaw_calm : Calm cacheLaw where
  time dt s h := by
    unfold cacheLaw
    rw [elapse_cache]
    exact h
  port _ _ _ _ h := h

theorem cacheLaw_empty {s : State} (h : s.cache = []) : cacheLaw s := by
  unfold cacheLaw
  rw [h]
  exact ⟨Nat.zero_le _, List.nodup_nil⟩

theorem cacheLaw_purge (m : Master) (n : Nat) (s : State) (h : cacheLaw s) : cacheLaw (purge m n s).state := by
  obtain ⟨hlen, hkeys⟩ := h
  unfold purge
  split
  · exact ⟨hlen, hkeys⟩
  · split
    · exact ⟨hlen, hkeys⟩
    · exact ⟨Nat.le_trans (List.length_filter_le _ _) hlen, hkeys.sublist (List.filter_sublist.map _)⟩

theorem cacheLaw_raise (src : FaultSource) (info : RaiseInfo) (s : State) (h : cacheLaw s) :
    cacheLaw (raise src info s).state := by
  rw [raise_keeps cacheLaw_offFaults]
  exact h

/-- Every command keeps the law of the cache. -/
theorem cacheLaw_exec (i : Instr) (s t : State) (hs : cacheLaw s) (e : exec i s = .next t) : cacheLaw t := by
  have hresolve : ∀ m b p s, cacheLaw s → cacheLaw (resolve m b p s).1 := cacheLaw_resolve
  cases i
  case storePreset h b q x g l ks =>
    refine cacheLaw_calm.request (fun s hs => ?_) hs e
    unfold storePreset
    split
    · exact edit_law hs (hresolve _ _ _ _ hs) fun _ _ => hresolve _ _ _ _ hs
    · exact hs
  case capture h b q x d sh =>
    exact cacheLaw_calm.request (body := capture h.link b q x d sh)
      (fun s hs => edit_law hs (hresolve _ _ _ _ hs) fun _ _ => hresolve _ _ _ _ hs) hs e
  case appendKeyframe h b q k =>
    refine cacheLaw_calm.request (body := appendKeyframe h.link b q k)
      (fun s hs => edit_law hs (hresolve _ _ _ _ hs) fun _ _ => ?_) hs e
    unfold appendTo
    split <;> exact hresolve _ _ _ _ hs
  case erasePreset h b q =>
    exact cacheLaw_calm.request (body := erasePreset h.link b q)
      (fun s hs => edit_law hs (hresolve _ _ _ _ hs) fun _ _ => hresolve _ _ _ _ hs) hs e
  case queryPreset h b q f =>
    exact cacheLaw_calm.request (body := queryPreset h.link b q f)
      (fun s hs => queryPreset_law hs (hresolve _ _ _ _ hs)) hs e
  case recallCue h b q f v c p =>
    refine cacheLaw_calm.request (body := recallMove h.link b q f v c p)
      (fun s hs => recallMove_law hs (hresolve _ _ _ _ hs) fun n x k q s hs => ?_) hs e
    rw [recallResolved_keeps (g := cacheLaw) ⟨fun _ _ => rfl⟩ (fun _ _ => rfl) (fun _ _ => rfl)]
    exact hs
  case purge h n => exact cacheLaw_calm.request (cacheLaw_purge h.link n) hs e
  case configurationLoad dt a =>
    refine cacheLaw_calm.event (f := configurationLoad a) (fun s hs => configurationLoad_law (cacheLaw_raise _ _)
      (fun b s h => ?_) hs (cacheLaw_empty rfl) (fun _ _ _ => cacheLaw_empty rfl) fun _ _ => cacheLaw_empty rfl) hs e
    rw [raiseActions_keeps cacheLaw_offFaults]
    exact h
  case powerOn | lowSupply | resetPin | restart =>
    exact cacheLaw_calm.exec_reset (fun _ _ _ h => h) (fun _ _ _ => cacheLaw_empty rfl) rfl hs e
  all_goals exact cacheLaw_calm.exec_disjoint cacheLaw_free rfl rfl hs e

/-! ## The store (R44, R46, R47) -/

/-- The fields that the store's law looks at. -/
def readsStore : Field → Bool
  | .cache | .store => true
  | _ => false

theorem storeLaw_free : ∀ f : Field, readsStore f = false → f.FreeIn storeLaw := fun f hf => by
  cases f <;> first | exact fun _ _ => rfl | cases hf

theorem storeLaw_offFaults : OffFaults storeLaw :=
  ⟨⟨fun _ _ => rfl⟩, fun _ _ => rfl, fun _ _ => rfl, fun _ _ => rfl⟩

theorem storeLaw_calm : Calm storeLaw where
  time dt s h := by
    unfold storeLaw
    rw [elapse_store, elapse_cache]
    exact h
  port _ _ _ _ h := h

theorem storeLaw_setRecord {s : State} {n : Nat} (r : PresetRecord) (h : storeLaw s) (hn : n < 256) :
    storeLaw (s.setRecord n r) := by
  obtain ⟨hr, hc, hb, hcues, hcache⟩ := h
  exact ⟨writeAt_wf hr hn, hc, hb, hcues, hcache⟩

theorem storeLaw_setCue {s : State} {l p : Nat} (e : CueEntry) (h : storeLaw s) (hl : l < 32) (hp : p < 16)
    (he : e.record < 256) : storeLaw (s.setCue l p e) := by
  obtain ⟨hr, hc, hb, hcues, hcache⟩ := h
  refine ⟨hr, writeAt_wf hc (by omega), hb, fun e' he' => ?_, hcache⟩
  rcases writeAt_mem he' with rfl | he'
  · exact he
  · exact hcues e' he'

theorem storeLaw_setBank {s : State} {d b : Nat} (e : BankEntry) (h : storeLaw s) (hd : d < 4) (hb : b < 16) :
    storeLaw (s.setBank d b e) := by
  obtain ⟨hr, hc, hbanks, hcues, hcache⟩ := h
  exact ⟨hr, hc, writeAt_wf hbanks (by omega), hcues, hcache⟩

/-- A record that does not read as cleared does not read so as it is loaded either. -/
theorem loadedRecord_ne_cleared {r : PresetRecord} (h : r ≠ PresetRecord.cleared) :
    loadedRecord r ≠ PresetRecord.cleared := by
  intro hc
  obtain ⟨body, key, guarded, author⟩ := r
  cases body with
  | none => exact h hc
  | some b => cases congrArg PresetRecord.body hc

theorem loadedStore_records_wf {t : Sparse PresetRecord} (h : tableWf PresetRecord.cleared 256 t = true) :
    tableWf PresetRecord.cleared 256 (t.map fun e => (e.1, loadedRecord e.2)) = true := by
  induction t with
  | nil => rfl
  | cons e t ih =>
    obtain ⟨k, v⟩ := e
    rw [tableWf_cons] at h
    obtain ⟨hk, hv, hlt, ht⟩ := h
    rw [List.map_cons, tableWf_cons]
    refine ⟨hk, loadedRecord_ne_cleared hv, fun e he => ?_, ih ht⟩
    obtain ⟨e', he', rfl⟩ := List.mem_map.1 he
    exact hlt e' he'

theorem storeLaw_cleared {s : State} (h : s.store = PresetStore.cleared) (hc : s.cache = []) : storeLaw s := by
  unfold storeLaw
  rw [h, hc]
  exact ⟨rfl, rfl, rfl, nofun, nofun⟩

/-- A store whose tables stand keeps its law with an empty cache. -/
theorem storeLaw_emptyCache {s t : State} (h : storeLaw s) (hs : t.store = s.store) (hc : t.cache = []) :
    storeLaw t := by
  obtain ⟨hr, hcu, hb, hcues, _⟩ := h
  unfold storeLaw
  rw [hs, hc]
  exact ⟨hr, hcu, hb, hcues, nofun⟩

/-- The preset section that a good image gives has the canonical form. -/
theorem storeLaw_takeImage {s : State} {i : ConfigImage} (m : ConfigImage) (h : storeLaw s)
    (hi : imageGood s i = true) : storeLaw ((takeImage i { s with memory := m }).setCache []) := by
  have hread : readsPresets { s with memory := m } = readsPresets s := rfl
  unfold takeImage
  rw [hread]
  cases hp : readsPresets s with
  | false => exact storeLaw_emptyCache h rfl rfl
  | true =>
    simp only [imageGood, hp, Bool.not_true, Bool.false_or, Bool.and_eq_true] at hi
    obtain ⟨_, hpresets⟩ := hi
    simp only [presetsInRange, Bool.and_eq_true, List.all_eq_true, decide_eq_true_eq] at hpresets
    obtain ⟨⟨⟨⟨⟨hr, _⟩, hc⟩, hcues⟩, hb⟩, _⟩ := hpresets
    exact ⟨loadedStore_records_wf hr, hc, hb, hcues, nofun⟩

theorem storeLaw_takeReset (c : ResetCause) (s : State) (h : storeLaw s) : storeLaw (takeReset c s) := by
  cases hc : clearsStore c with
  | true => exact storeLaw_cleared (by simp [takeReset, hc]) rfl
  | false => exact storeLaw_emptyCache h (by simp [takeReset, hc]) rfl

theorem storeLaw_raise (src : FaultSource) (info : RaiseInfo) (s : State) (h : storeLaw s) :
    storeLaw (raise src info s).state := by
  rw [raise_keeps storeLaw_offFaults]
  exact h

theorem storeLaw_setBankEntry (d b k l : Nat) (fs : List Nat) (s : State) (h : storeLaw s) :
    storeLaw (setBankEntry d b k l fs s).state := by
  unfold setBankEntry
  split
  · rename_i hn
    split
    · unfold unlessSaving
      split
      · exact h
      · exact storeLaw_setBank _ h hn.1 hn.2
    · exact h
  · exact h

theorem storeLaw_setCueEntry (l p v k r : Nat) (s : State) (h : storeLaw s) :
    storeLaw (setCueEntry l p v k r s).state := by
  unfold setCueEntry
  split
  · rename_i hn
    obtain ⟨hl, hp, hr⟩ := hn
    split
    · unfold unlessSaving
      split
      · exact h
      · exact storeLaw_setCue _ h hl hp hr
    · exact h
  · exact h

/-- An edit writes the record its resolution hands. -/
theorem storeLaw_edit {m : Master} {b p : Nat} {a : Option RefusalCode} {own : State → Nat → Option RefusalCode}
    {w : State → Nat → Response} (hw : ∀ s n, n < 256 → storeLaw s → storeLaw (w s n).state) (s : State)
    (hs : storeLaw s) : storeLaw (edit m b p a own w s).state := by
  obtain ⟨hres, hrec⟩ := storeLaw_resolve m b p s hs
  exact edit_law hs hres fun r hr => hw _ _ (hrec r hr) hres

/-- Every command keeps the canonical form of the store. -/
theorem storeLaw_exec (i : Instr) (s t : State) (hs : storeLaw s) (e : exec i s = .next t) : storeLaw t := by
  cases i
  case storePreset h b q x g l ks =>
    refine storeLaw_calm.request (fun s hs => ?_) hs e
    unfold storePreset
    split
    · exact storeLaw_edit (fun s n hn hs => storeLaw_setRecord _ hs hn) s hs
    · exact hs
  case capture h b q x d sh =>
    exact storeLaw_calm.request (body := capture h.link b q x d sh)
      (fun s => storeLaw_edit (fun s n hn hs => storeLaw_setRecord _ hs hn) s) hs e
  case appendKeyframe h b q k =>
    refine storeLaw_calm.request (body := appendKeyframe h.link b q k) (storeLaw_edit fun s n hn hs => ?_) hs e
    unfold appendTo
    split
    · exact hs
    · exact storeLaw_setRecord _ hs hn
  case erasePreset h b q =>
    exact storeLaw_calm.request (body := erasePreset h.link b q)
      (storeLaw_edit fun s n hn hs => storeLaw_setRecord _ hs hn) hs e
  case queryPreset h b q f =>
    exact storeLaw_calm.request (body := queryPreset h.link b q f)
      (fun s hs => queryPreset_law hs (storeLaw_resolve _ _ _ _ hs).1) hs e
  case recallCue h b q f v c p =>
    refine storeLaw_calm.request (body := recallMove h.link b q f v c p)
      (fun s hs => recallMove_law hs (storeLaw_resolve _ _ _ _ hs).1 fun n x k q s hs => ?_) hs e
    rw [recallResolved_keeps (g := storeLaw) ⟨fun _ _ => rfl⟩ (fun _ _ => rfl) (fun _ _ => rfl)]
    exact hs
  case purge h n =>
    refine storeLaw_calm.request (body := purge h.link n) (fun s hs => ?_) hs e
    unfold purge
    split
    · exact hs
    · split
      · exact hs
      · obtain ⟨hr, hc, hb, hcues, hcache⟩ := hs
        exact ⟨hr, hc, hb, hcues, fun e he => hcache e ((List.mem_filter.1 he).1)⟩
  case setBankEntry h d b k l fs =>
    exact storeLaw_calm.request (privileged_law (storeLaw_setBankEntry d b k l fs)) hs e
  case setCueEntry h l q v k r =>
    exact storeLaw_calm.request (privileged_law (storeLaw_setCueEntry l q v k r)) hs e
  case configurationLoad dt a =>
    refine storeLaw_calm.event (f := configurationLoad a) (fun s hs => configurationLoad_law (storeLaw_raise _ _)
      (fun b s h => ?_) hs (storeLaw_emptyCache hs rfl rfl) (fun i m hi => storeLaw_takeImage m hs hi)
      fun i m => ?_) hs e
    · rw [raiseActions_keeps storeLaw_offFaults]
      exact h
    · refine storeLaw_emptyCache hs ?_ rfl
      exact raiseRecord_keeps (g := State.store) ⟨⟨fun _ _ => rfl⟩, fun _ _ => rfl, fun _ _ => rfl, fun _ _ => rfl⟩
        _ _ _
  case powerOn | lowSupply | resetPin | restart =>
    exact storeLaw_calm.exec_reset (fun _ _ _ h => h) storeLaw_takeReset rfl hs e
  all_goals exact storeLaw_calm.exec_disjoint storeLaw_free rfl rfl hs e

/-- Settles O57: each of the three laws is kept by every command, since only the commands that write the ports, the
cache or the store can break it, and those stay within the bounds. -/
theorem stepsKeepLinksCacheAndStore : Obligations.StepsKeepLinksCacheAndStore := by
  intro s t hlink hcache hstore e
  exact ⟨step_keeps (fun dt _ => linkLaw_elapse dt) (fun _ _ h => h) linkLaw_exec hlink e,
    step_keeps cacheLaw_calm.time (fun _ _ h => h) cacheLaw_exec hcache e,
    step_keeps storeLaw_calm.time (fun _ _ h => h) storeLaw_exec hstore e⟩

end Sys2Proof.Machine
end

section
/-! PROOFS. How a law of the state passes through fault control, and through the events that raise a source. -/

namespace Sys2Proof.Machine

/-! ## Queues that only lose moves and axes -/

/-- A queue after one in which moves were removed, lost axes or went on: its ids are some of the earlier ones in their
order, and each move is one of the earlier ones with some of its axes, none left without an axis that had one. -/
def Shrunk (q q' : List Move) : Prop :=
  (q'.map Move.id).Sublist (q.map Move.id) ∧
    ∀ m' ∈ q', ∃ m ∈ q, m'.requester = m.requester ∧
      (∀ a, AxisSet.has m'.axes a = true → AxisSet.has m.axes a = true) ∧ (m.axes ≠ 0#8 → m'.axes ≠ 0#8)

theorem Shrunk.refl (q : List Move) : Shrunk q q := ⟨.refl _, fun m hm => ⟨m, hm, rfl, fun _ h => h, id⟩⟩

theorem Shrunk.trans {p q r : List Move} (h : Shrunk p q) (h' : Shrunk q r) : Shrunk p r := by
  obtain ⟨hids, hmoves⟩ := h
  obtain ⟨hids', hmoves'⟩ := h'
  refine ⟨hids'.trans hids, fun m hm => ?_⟩
  obtain ⟨m', hm', hreq', haxes', hne'⟩ := hmoves' m hm
  obtain ⟨m'', hm'', hreq, haxes, hne⟩ := hmoves m' hm'
  exact ⟨m'', hm'', hreq'.trans hreq, fun a ha => haxes a (haxes' a ha), fun h => hne' (hne h)⟩

theorem Shrunk.eq_nil {q : List Move} (h : Shrunk [] q) : q = [] :=
  List.map_eq_nil_iff.1 (List.sublist_nil.1 h.1)

theorem Shrunk.nil (q : List Move) : Shrunk q [] := ⟨List.nil_sublist _, fun _ h => absurd h List.not_mem_nil⟩

theorem Shrunk.filter (p : Move → Bool) (q : List Move) : Shrunk q (q.filter p) :=
  ⟨List.filter_sublist.map _, fun m hm => ⟨m, (List.mem_filter.1 hm).1, rfl, fun _ h => h, id⟩⟩

/-- Every move goes on as itself, its axes kept. -/
theorem Shrunk.map {f : Move → Move} {q : List Move} (hid : ∀ m, (f m).id = m.id)
    (hreq : ∀ m, (f m).requester = m.requester) (haxes : ∀ m, (f m).axes = m.axes) : Shrunk q (q.map f) := by
  have hids : (q.map f).map Move.id = q.map Move.id :=
    List.map_map.trans (List.map_congr_left fun m _ => hid m)
  refine ⟨hids ▸ List.Sublist.refl _, fun m' hm' => ?_⟩
  obtain ⟨m, hm, rfl⟩ := List.mem_map.1 hm'
  exact ⟨m, hm, hreq m, fun a ha => by rwa [haxes] at ha, fun h => by rwa [haxes]⟩

/-- Withdrawal takes axes from the moves and removes those left with none. -/
theorem Shrunk.withdraw (x : AxisSet) (q : List Move) :
    Shrunk q ((q.map (Move.withdraw x)).filter fun m => !(Move.emptied m)) := by
  refine ⟨(List.filter_sublist.map _).trans (by rw [List.map_map]; exact .refl _), fun m' hm' => ?_⟩
  obtain ⟨hmap, hkept⟩ := List.mem_filter.1 hm'
  obtain ⟨m, hm, rfl⟩ := List.mem_map.1 hmap
  refine ⟨m, hm, rfl, fun a ha => ?_, fun _ => by simpa [Move.emptied] using hkept⟩
  rw [Move.withdraw_axes, AxisSet.has_and, Bool.and_eq_true] at ha
  exact ha.1

/-- A move of an earlier queue is written over those with its id. -/
theorem Shrunk.replace {q q' : List Move} {m m' : Move} (h : Shrunk q q') (hm : m ∈ q)
    (hreq : m'.requester = m.requester) (haxes : m'.axes = m.axes) :
    Shrunk q (replaceMove m'.id (fun _ => m') q') := by
  obtain ⟨hids, hmoves⟩ := h
  have hsame : (replaceMove m'.id (fun _ => m') q').map Move.id = q'.map Move.id := by
    unfold replaceMove
    rw [List.map_map]
    refine List.map_congr_left fun n _ => ?_
    simp only [Function.comp_apply]
    split
    · exact Eq.symm ‹_›
    · rfl
  refine ⟨hsame ▸ hids, fun n hn => ?_⟩
  obtain ⟨n', hn', rfl⟩ := List.mem_map.1 hn
  split
  · exact ⟨m, hm, hreq, fun a ha => haxes ▸ ha, fun h => haxes ▸ h⟩
  · exact hmoves n' hn'

/-! ## Fault control -/

/-- A law that the parts of fault control keep. -/
structure StopLaw (P : State → Prop) : Prop where
  queue : ∀ s q, Shrunk s.queue q → P s → P { s with queue := q }
  blend : ∀ s b, P s → P { s with blend := b }
  releaseDrives : ∀ s, P s → P (releaseDrives s)
  stopping : ∀ s n, P s → P (setSafeStop .stopping (some n) s)
  released : ∀ s, P s → P (enterReleased s).state
  cause : ∀ s c, P s → P (setStopCause c s)
  escalation : ∀ s e, P s → P { s with faults := { s.faults with escalation := e } }
  record : ∀ src info s, P s → P (raiseRecord src info s)

section StopLaw
variable {P : State → Prop}

theorem StopLaw.removeMoves (sl : StopLaw P) (p f) {s : State} (h : P s) : P (removeMoves p f s).state :=
  sl.queue _ _ (.filter _ _) h

theorem StopLaw.withdrawWith (sl : StopLaw P) (x f) {s : State} (h : P s) : P (withdrawWith x f s).state :=
  sl.queue s _ (.withdraw _ _) h

theorem StopLaw.haltEverything (sl : StopLaw P) {s : State} (h : P s) : P (haltEverything s).state :=
  sl.blend _ _ (sl.queue _ _ (.map (fun _ => rfl) (fun _ => rfl) fun _ => rfl) (sl.removeMoves _ _ h))

theorem StopLaw.safeStopEntry (sl : StopLaw P) (c : StopCause) (s : State) (h : P s) :
    P (safeStopEntry c s).state := by
  unfold Machine.safeStopEntry
  split
  · rw [andThen_state]
    have hc : P (setStopCause c (Machine.haltEverything s).state) := sl.cause _ _ (sl.haltEverything h)
    unfold beginStop
    split
    · exact sl.stopping _ _ hc
    · exact sl.released _ hc
  · exact h

theorem StopLaw.releaseAction (sl : StopLaw P) (s : State) (h : P s) : P (releaseAction s).state := by
  unfold Machine.releaseAction
  split
  · exact sl.released _ (sl.cause _ _ (sl.haltEverything h))
  · exact sl.released _ (sl.cause _ _ h)
  · exact h

theorem StopLaw.holdAction (sl : StopLaw P) (x : AxisSet) (s : State) (h : P s) : P (holdAction x s).state :=
  sl.withdrawWith _ _ (sl.blend _ _ h)

theorem StopLaw.raiseActions (sl : StopLaw P) (src : FaultSource) (info : RaiseInfo) (first : Bool) (s : State)
    (h : P s) : P (raiseActions src info first s).state := by
  have hacts : P (((whenever (actionSet s src).hold (Machine.holdAction (holdScope src info s)) s).andThen
      (whenever (actionSet s src).safeStop (Machine.safeStopEntry (.source src)))).andThen
      (whenever (src == .estop) Machine.releaseAction)).state :=
    whenever_keeps (sl.releaseAction) _ (whenever_keeps (sl.safeStopEntry _) _
      (whenever_keeps (sl.holdAction _) _ h))
  unfold Machine.raiseActions
  simp only
  split
  · unfold startEscalation
    split
    · exact hacts
    · exact sl.escalation _ _ hacts
  · exact hacts

/-- A raise keeps the law. -/
theorem StopLaw.raise (sl : StopLaw P) (src : FaultSource) (info : RaiseInfo) (s : State) (h : P s) :
    P (raise src info s).state := sl.raiseActions _ _ _ _ (sl.record _ _ _ h)

end StopLaw

/-! ## The events that raise a source -/

/-- A law that fault control keeps and that the other writes of the raising events cannot break. -/
structure EventLaw (P : State → Prop) : Prop extends StopLaw P, Calm P where
  joysticks : ∀ s x, P s → P { s with joysticks := x }
  timecode : ∀ s x, P s → P { s with timecode := x }
  staleLimits : ∀ s x, P s → P { s with settings := { s.settings with staleLimits := x } }
  estop : ∀ s, P s → P (Machine.releaseDrives (setEstop true s))

section EventLaw
variable {P : State → Prop}

theorem EventLaw.frameReceived (el : EventLaw P) (m : Master) (l : List Octet) (s : State) (h : P s) :
    P (frameReceived m l s).state := by
  have hbad : ∀ n, P (setBadRun m n s) := fun n => el.port s m _ rfl h
  unfold Machine.frameReceived
  split
  · exact h
  · exact h
  · unfold judgeFrame
    split
    · exact whenever_keeps (P := P) (el.raise _ _) _ (hbad _)
    · exact el.joysticks _ _ (hbad 0)
    · exact el.toCalm.receiveRequest _ _ h

theorem EventLaw.enterStale (el : EventLaw P) (m : Master) (s : State) (h : P s) : P (enterStale m s).state :=
  el.raise _ _ _ (el.joysticks _ _ h)

theorem EventLaw.staleEntry (el : EventLaw P) (m : Master) (s : State) (h : P s) : P (staleEntry m s).state := by
  unfold Machine.staleEntry
  split
  · split
    · exact el.enterStale m s h
    · exact h
  · exact h

theorem EventLaw.setStaleLimit (el : EventLaw P) (r : Master) (m l : Nat) (s : State) (h : P s) :
    P (setStaleLimit r m l s).state := by
  unfold Machine.setStaleLimit
  split
  · exact h
  · split
    · split
      · exact h
      · have hl : ∀ m l, P (setLimitOf m l s) := fun m l => el.staleLimits s _ h
        show P (rejudgeStale _ _ _).state
        unfold rejudgeStale
        split
        · split
          · exact el.enterStale _ _ (hl _ _)
          · exact hl _ _
        · exact hl _ _
        · exact hl _ _
        · exact el.joysticks _ _ (hl _ _)
    · exact h

theorem EventLaw.loseGenlock (el : EventLaw P) (s : State) (h : P s) : P (loseGenlock s).state :=
  el.raise _ _ _ (el.timecode _ _ h)

theorem EventLaw.cueMatch (el : EventLaw P) (v : Timecode) (s : State) (h : P s) : P (cueMatch v s) := by
  refine el.queue _ _ (.map (fun m => ?_) (fun m => ?_) fun m => ?_) h <;> split <;> rfl

theorem EventLaw.genlockPulse (el : EventLaw P) (s : State) (h : P s) : P (genlockPulse s).state := by
  have hlock : ∀ l n s, P s → P (setLock l n s) := fun l n s h => el.timecode _ _ h
  refine whenever_keeps (P := P) (fun s h => ?_) _ h
  have hc : P (capturePeriod s) := el.timecode _ _ h
  unfold judgePeriod
  split
  · exact hlock _ _ _ hc
  · exact hlock _ _ _ hc
  · exact hlock _ _ _ hc
  · show P (countGood _)
    unfold countGood
    split <;> exact hlock _ _ _ hc
  · show P (lockedPulse _)
    unfold lockedPulse
    split
    · exact el.cueMatch _ _ (el.timecode _ _ (hlock _ _ _ hc))
    · exact hlock _ _ _ hc
  · exact el.loseGenlock _ hc

theorem EventLaw.genlockLoss (el : EventLaw P) (s : State) (h : P s) : P (genlockLoss s).state := by
  unfold Machine.genlockLoss
  split
  · exact h
  · split
    · exact el.loseGenlock _ h
    · exact el.timecode _ _ h
    · exact h
    · exact h

theorem EventLaw.escalationExpiry (el : EventLaw P) (s : State) (h : P s) : P (escalationExpiry s).state := by
  unfold Machine.escalationExpiry
  split
  · exact h
  · split
    · exact el.safeStopEntry _ _ (el.escalation _ _ h)
    · exact h

theorem EventLaw.stopTimerExpiry (el : EventLaw P) (s : State) (h : P s) : P (stopTimerExpiry s).state := by
  unfold Machine.stopTimerExpiry
  split
  · exact h
  · split
    · exact el.released _ (el.raise _ _ _ h)
    · exact h

theorem EventLaw.estopActivates (el : EventLaw P) (s : State) (h : P s) : P (estopActivates s).state := by
  unfold Machine.estopActivates
  split
  · exact h
  · exact whenever_keeps (P := P) (el.raise _ _) _ (el.estop _ h)

/-- The commands whose only parts beside a raise are ones that an `EventLaw` cannot be broken by. -/
def raisesAlone : Instr → Bool
  | .setStaleLimit .. | .frameReceived .. | .estop .. | .genlockPulse .. | .genlockLossEvent .. | .staleEntry ..
  | .escalationExpiry .. | .stopTimerExpiry .. => true
  | _ => false

/-- Such a command keeps the law. -/
theorem EventLaw.exec (el : EventLaw P) {i : Instr} (hi : raisesAlone i = true) {s t : State} (hs : P s)
    (e : exec i s = .next t) : P t := by
  have c : Calm P := el.toCalm
  cases i <;> simp only [raisesAlone, Bool.false_eq_true] at hi
  case setStaleLimit h m l => exact c.request (el.setStaleLimit h.link m l) hs e
  case frameReceived dt m l => exact c.event (el.frameReceived m l) hs e
  case estop => exact c.event el.estopActivates hs e
  case genlockPulse => exact c.event el.genlockPulse hs e
  case genlockLossEvent => exact c.event el.genlockLoss hs e
  case staleEntry dt m => exact c.event (el.staleEntry m) hs e
  case escalationExpiry => exact c.event el.escalationExpiry hs e
  case stopTimerExpiry => exact c.event el.stopTimerExpiry hs e

end EventLaw

end Sys2Proof.Machine
end

section
/-! PROOFS. No command but RECALL adds a move: every other leaves a queue that only lost moves and axes. -/

namespace Sys2Proof.Machine

/-! ## Fault control and time -/

/-- The law that the queue is what some earlier queue has shrunk to. -/
theorem shrunk_eventLaw (q : List Move) : EventLaw fun s => Shrunk q s.queue where
  queue _ _ h' h := h.trans h'
  blend _ _ h := h
  releaseDrives _ h := h
  stopping _ _ h := h
  released _ h := h.trans (.filter _ _)
  cause _ _ h := h
  escalation _ _ h := h
  record src info s h := by
    have hkeeps : (raiseRecord src info s).queue = s.queue := by
      unfold raiseRecord
      split <;> rfl
    rwa [hkeeps]
  time dt s h := by rwa [elapse_queue]
  port _ _ _ _ h := h
  joysticks _ _ h := h
  timecode _ _ h := h
  staleLimits _ _ h := h
  estop _ h := h

theorem raise_shrunk (src : FaultSource) (info : RaiseInfo) {q : List Move} (s : State) (h : Shrunk q s.queue) :
    Shrunk q (raise src info s).state.queue := (shrunk_eventLaw q).raise src info s h

/-! ## The preset step (R85 to R89) -/

/-- Parts taken for the items of a list keep a law that each keeps for its own item. -/
theorem emitEach_keeps_mem {α : Type} {P : State → Prop} {f : α → State → Emit} {l : List α}
    (hf : ∀ x ∈ l, ∀ s, P s → P (f x s).state) {s : State} (hs : P s) : P (emitEach l f s).state := by
  induction l generalizing s with
  | nil => exact hs
  | cons x l ih => exact ih (fun y hy => hf y (List.mem_cons_of_mem _ hy)) (hf x List.mem_cons_self s hs)

section PresetStep
variable {q : List Move} {m m' : Move}

theorem advance_shrunk (hm : m ∈ q) (hreq : m'.requester = m.requester) (haxes : m'.axes = m.axes) (g : Segment)
    (s : State) (h : Shrunk q s.queue) : Shrunk q (advance m' g s).queue := h.replace hm hreq haxes

theorem begin_shrunk (hm : m ∈ q) (hreq : m'.requester = m.requester) (haxes : m'.axes = m.axes) (k : PerAxis Int)
    (n : Nat) (kf : Keyframe) (s : State) (h : Shrunk q s.queue) : Shrunk q (begin k n kf m' s).queue :=
  advance_shrunk (m' := { m' with state := .running, keyframe := some n }) hm hreq haxes _ s h

theorem takeMove_shrunk (k : PerAxis Int) (hm : m ∈ q) (s : State) (h : Shrunk q s.queue) :
    Shrunk q (takeMove k m s).state.queue := by
  unfold takeMove
  split
  · split
    · exact h
    · split
      · exact advance_shrunk hm rfl rfl _ s h
      · unfold boundary
        split
        · exact h.trans (.filter _ _)
        · split
          · refine begin_shrunk hm ?_ ?_ _ _ _ s h <;> rfl
          · exact h.replace hm rfl rfl
  · split
    · exact h
    · split
      · refine begin_shrunk hm ?_ ?_ _ _ _ s h <;> rfl
      · exact h
  · exact h
  · exact h

theorem startMove_shrunk (k : PerAxis Int) (hm : m ∈ q) (s : State) (h : Shrunk q s.queue) :
    Shrunk q (startMove k m s).state.queue := by
  unfold startMove
  split
  · exact h
  · simp only
    split
    · refine begin_shrunk hm ?_ ?_ _ _ _ { s with blend := mapAt m.axes Blend.toPreset s.blend } h <;> rfl
    · exact h.replace hm rfl rfl

theorem startPass_shrunk (k : PerAxis Int) {l : List Move} (hl : ∀ m ∈ l, m ∈ q) (x : AxisSet) (s : State)
    (h : Shrunk q s.queue) : Shrunk q (startPass k x l s).state.queue := by
  induction l generalizing x s with
  | nil => exact h
  | cons m l ih =>
    exact ih (fun n hn => hl n (List.mem_cons_of_mem _ hn)) _ _ (whenever_keeps (P := fun s => Shrunk q s.queue)
      (startMove_shrunk k (hl m List.mem_cons_self)) _ h)

/-- The preset step writes over moves it found in the queue, and removes those that are done. -/
theorem presetStep_shrunk (k : PerAxis Int) (s : State) (h : Shrunk q s.queue) :
    Shrunk q (presetStep k s).state.queue := by
  unfold presetStep
  rw [andThen_state]
  have htake : Shrunk s.queue (emitEach s.queue (takeMove k) s).state.queue :=
    emitEach_keeps_mem (P := fun t => Shrunk s.queue t.queue) (fun m hm t ht => takeMove_shrunk k hm t ht) (.refl _)
  exact h.trans (htake.trans (startPass_shrunk k (fun _ hm => hm) _ _ (.refl _)))

end PresetStep

/-! ## A frame (R102, R135) -/

section Frame
variable {q : List Move} (s : State)

theorem limitStage_shrunk (x : AxisSet) (k : PerAxis Int) (h : Shrunk q s.queue) :
    Shrunk q (limitStage x k s).state.queue := by
  let P : State → Prop := fun s => Shrunk q s.queue
  have hclamp : ∀ (t : AxisSet) a s, P s → P (judgeClamp (AxisSet.has t a) a s).state := fun t a s hs =>
    whenever_keeps (P := P) (raise_shrunk _ _) _ hs
  have hzone : ∀ n s, P s → P (raiseZoneEntry n s).state := fun n s hs => raise_shrunk _ _ s hs
  unfold limitStage
  simp only [andThen_state, quiet_state]
  exact emitEach_keeps (P := P) hzone _ (emitEach_keeps (P := P) (hclamp _) _ h)

theorem countReport_shrunk (m : Master) (h : Shrunk q s.queue) : Shrunk q (countReport m s).state.queue := by
  unfold countReport
  simp only
  split
  · exact h
  · split <;> exact h

theorem frameComputation_shrunk (h : Shrunk q s.queue) : Shrunk q (frameComputation s).state.queue := by
  unfold frameComputation computeDemands safeStopRest
  simp only [andThen_state, quiet_state]
  refine emitEach_keeps (P := fun s => Shrunk q s.queue) (fun m s hs => countReport_shrunk s m hs) _
    (whenever_keeps (P := fun s => Shrunk q s.queue) (fun s hs => hs.trans (.filter _ _)) _ ?_)
  refine Shrunk.trans (limitStage_shrunk _ _ _ ?_) (.filter _ _)
  exact Shrunk.trans (presetStep_shrunk _ s h) (.withdraw _ _)

theorem feedbackChecks_shrunk (b : PerAxis DriveState) (w : PerAxis (Option FeedbackWord)) (h : Shrunk q s.queue) :
    Shrunk q (feedbackChecks b w s).state.queue := by
  let P : State → Prop := fun s => Shrunk q s.queue
  have hecho : ∀ a s, P s → P (echoCheck w a s).state := fun a s hs =>
    whenever_keeps (P := P) (raise_shrunk _ _) _ hs
  have hstate : ∀ a s, P s → P (driveStateCheck b a s).state := fun a s hs =>
    whenever_keeps (P := P) (raise_shrunk _ _) _ hs
  have hfollow : ∀ a s, P s → P (followingCheck w a s).state := fun a s hs =>
    whenever_keeps (P := P) (raise_shrunk _ _) _ hs
  unfold feedbackChecks
  exact emitEach_keeps (P := P) hfollow _ (emitEach_keeps (P := P) hstate _ (emitEach_keeps (P := P) hecho _ h))

theorem frame_shrunk (w : SlotWords) (h : Shrunk q s.queue) : Shrunk q (frame w s).state.queue := by
  unfold frame frameOn
  rw [andThen_state]
  refine frameComputation_shrunk _ ?_
  rw [countFrame_queue]
  refine feedbackChecks_shrunk _ _ _ ?_
  rwa [receive_queue, transmit_queue]

end Frame

/-! ## Requests -/

section Requests
variable (s : State)

theorem authorityRequest_shrunk (x : AxisSet) (b : Bool) (v : State → Axis → Verdict) :
    Shrunk s.queue (authorityRequest x b v s).state.queue := by
  unfold authorityRequest
  split
  · exact .refl _
  · split
    · exact .withdraw _ _
    · exact .refl _

theorem modeRequest_shrunk (m : Master) (x : AxisSet) (b : Bool) (v : State → Axis → ModeVerdict) :
    Shrunk s.queue (modeRequest m x b v s).state.queue := by
  unfold modeRequest
  split
  · exact .refl _
  · exact .withdraw _ _

/-- A request on a move acts on a move of the queue. -/
theorem onMove_shrunk {r : Master} {id : Nat} {act : Move → State → Response}
    (ha : ∀ m ∈ s.queue, Shrunk s.queue (act m s).state.queue) : Shrunk s.queue (onMove r id act s).state.queue := by
  unfold onMove
  split
  · exact .refl _
  · rename_i m hm
    split
    · exact ha m (List.mem_of_find?_eq_some hm)
    · exact .refl _

theorem writeMove_shrunk {m m' : Move} (hm : m ∈ s.queue) (hreq : m'.requester = m.requester)
    (haxes : m'.axes = m.axes) : Shrunk s.queue (writeMove m' s).queue := (Shrunk.refl _).replace hm hreq haxes

theorem go_shrunk (r : Master) (id : Nat) : Shrunk s.queue (go r id s).state.queue := by
  refine onMove_shrunk s fun m hm => ?_
  unfold goOn
  split
  · exact .refl _
  · split <;> exact writeMove_shrunk s hm rfl rfl

theorem speedMove_shrunk (r : Master) (id v : Nat) : Shrunk s.queue (speedMove r id v s).state.queue := by
  refine onMove_shrunk s fun m hm => ?_
  split
  · exact writeMove_shrunk s hm rfl rfl
  · exact .refl _

theorem abort_shrunk (r : Master) (id : Nat) : Shrunk s.queue (abort r id s).state.queue := by
  refine onMove_shrunk s fun m hm => ?_
  have hstop : Shrunk s.queue (stopMove m s).state.queue :=
    Shrunk.trans (writeMove_shrunk s (m' := { m with state := .stopping, stopOutcome := some .aborted }) hm rfl rfl)
      (.withdraw _ _)
  show Shrunk s.queue (abortMove m s).state.queue
  unfold abortMove
  split
  · exact .filter _ _
  · exact hstop
  · exact hstop
  · exact .refl _

theorem setTimecode_shrunk (v : Timecode) : Shrunk s.queue (setTimecode v s).state.queue := by
  unfold setTimecode
  split
  · exact .filter _ _
  · exact .refl _

theorem offsetTimecode_shrunk (n : Nat) (v : Timecode) : Shrunk s.queue (offsetTimecode n v s).state.queue := by
  unfold offsetTimecode
  split
  · exact .refl _
  · split
    · exact .filter _ _
    · exact .refl _

theorem setRate_shrunk (n : Nat) : Shrunk s.queue (setRate n s).state.queue := by
  unfold setRate
  split
  · exact .refl _
  · split
    · exact .refl _
    · split
      · exact .refl _
      · exact .filter _ _

end Requests

/-! ## Every command but RECALL -/

/-- The field that the queue of moves is. -/
def readsQueue : Field → Bool
  | .queue => true
  | _ => false

/-- Whether a command is a RECALL. -/
def isRecall : Instr → Bool
  | .recallCue .. => true
  | _ => false

theorem exec_shrunk {i : Instr} (hi : isRecall i = false) {s t : State} (e : exec i s = .next t) :
    Shrunk s.queue t.queue := by
  have el := shrunk_eventLaw s.queue
  have c : Calm fun t => Shrunk s.queue t.queue := el.toCalm
  have hs : Shrunk s.queue s.queue := .refl _
  have hraise : ∀ src info t, Shrunk s.queue t.queue → Shrunk s.queue (raise src info t).state.queue := el.raise
  have hfree : ∀ f, readsQueue f = false → f.FreeIn fun t => Shrunk s.queue t.queue := fun f hf => by
    cases f <;> first | exact fun _ _ => rfl | cases hf
  have hrequest : ∀ {h : Header} {i : Instr} {body : State → Response},
      (∀ s, Shrunk s.queue (body s).state.queue) → request h i body s = .next t → Shrunk s.queue t.queue :=
    fun hb e => c.request (fun s' hs' => hs'.trans (hb s')) hs e
  have hpriv : ∀ {h : Header} {i : Instr} {body : State → Response},
      (∀ s, Shrunk s.queue (body s).state.queue) → request h i (privileged h body) s = .next t →
      Shrunk s.queue t.queue :=
    fun hb e => c.request (privileged_law (P := fun t => Shrunk s.queue t.queue)
      fun s' hs' => hs'.trans (hb s')) hs e
  cases i
  case claim | release | yield | seize | withdrawWait => exact hrequest (fun s => authorityRequest_shrunk s _ _ _) e
  case setMode | takeLive => exact hrequest (fun s => modeRequest_shrunk s _ _ _ _) e
  case go => exact hrequest (fun s => go_shrunk s _ _) e
  case abort => exact hrequest (fun s => abort_shrunk s _ _) e
  case speed => exact hrequest (fun s => speedMove_shrunk s _ _ _) e
  case setTimecode => exact hpriv (fun s => setTimecode_shrunk s _) e
  case offsetTimecode => exact hpriv (fun s => offsetTimecode_shrunk s _ _) e
  case setRate => exact hpriv (fun s => setRate_shrunk s _) e
  case recallCue => cases hi
  case configurationLoad dt a =>
    refine c.event (f := configurationLoad a) (fun s' h => configurationLoad_law (hraise _ _)
      (fun b => el.raiseActions _ _ b) h h (fun _ _ _ => h) fun i m => ?_) hs e
    exact el.record _ _ (recordLoad .invalid i.marker (takeDefaults { s' with memory := m })) h
  case busSyncLost =>
    exact c.event (f := busSyncLost) (fun u h => whenever_keeps (P := fun t => Shrunk s.queue t.queue)
      (fun u h => hraise .busSyncLost RaiseInfo.bare { u with bus := { u.bus with sync := .lost } } h) _ h) hs e
  case frameStart dt w =>
    exact c.event (f := frameStart w) (fun u h => whenever_keeps (P := fun t => Shrunk s.queue t.queue)
      (fun u h => frame_shrunk { u with bus := { u.bus with syncPulses := u.bus.syncPulses + 1 } } w h) _ h) hs e
  case busSyncEdge dt w =>
    exact c.event (f := busSyncEdge w) (fun u h => whenever_keeps (P := fun t => Shrunk s.queue t.queue)
      (fun u h => frame_shrunk (takeEdge u) w h) _ h) hs e
  case powerOn | lowSupply | resetPin | restart =>
    exact c.exec_reset (fun _ _ _ h => h) (fun _ _ _ => .nil _) rfl hs e
  case setStaleLimit | frameReceived | estop | genlockPulse | genlockLossEvent | staleEntry | escalationExpiry |
      stopTimerExpiry => exact el.exec rfl hs e
  all_goals exact c.exec_disjoint hfree rfl rfl hs e

end Sys2Proof.Machine
end

section
/-! PROOFS. The laws of fault control through every step (O58): the first-fault record, the drive enables against the
E-STOP input and the latch, and the safe stop against the queue, the drives and the stop timer. -/

namespace Sys2Proof.Machine

/-! ## Parts that several of the laws pass through -/

section Shared
variable {P : State → Prop}

/-- The configuration load keeps a law of fault control that looks at nothing a load writes besides. -/
theorem EventLaw.configurationLoad (el : EventLaw P)
    (free : FreeOf P [.startup, .cache, .ports, .settings, .store, .joysticks, .memory]) (a : MemoryAnswer) (s : State)
    (h : P s) : P (configurationLoad a s).state := by
  obtain ⟨hu, hc, hp, hs, ht, hj, hm, _⟩ := free
  have hopen : ∀ s, P s → P (openPorts (setPhase .ready (s.setCache []))) := fun s h =>
    (hp _ _).mpr ((hu _ _).mpr ((hc _ _).mpr h))
  have hload : ∀ src b s, P s → P (recordLoad src b s) := fun src b s h => (hu _ _).mpr h
  refine configurationLoad_law (el.raise _ _) (fun b s h => el.raiseActions _ _ b s h) h
    (hopen _ (hload _ _ _ ((hs _ _).mpr h))) (fun i m _ => hopen _ (hload _ _ _ ?_)) fun i m => hopen _ ?_
  · rw [takeImage_keeps hs ht hj]
    exact (hm _ _).mpr h
  · exact el.record _ _ _ (hload _ _ _ ((hs { s with memory := m } _).mpr ((hm s m).mpr h)))

/-- The three sources of frames keep what the parts of a frame keep. -/
theorem EventLaw.exec_frame (c : Calm P) (fl : FrameLaw P) (sl : SyncLaw P) {s t : State} (hs : P s) {dt : Nat}
    {w : SlotWords} (e : Machine.exec (.frameStart dt w) s = .next t ∨ Machine.exec (.busSyncEdge dt w) s = .next t ∨
      Machine.exec (.busSyncLost dt) s = .next t) : P t := by
  rcases e with e | e | e
  · exact c.event (f := frameStart w) (fun s h => fl.frameStart sl w h) hs e
  · exact c.event (f := busSyncEdge w) (fun s h => fl.busSyncEdge sl w h) hs e
  · exact c.event (f := busSyncLost) (fun s h => fl.busSyncLost sl h) hs e

/-- FAULT CLEAR keeps what its three parts keep. -/
theorem faultClear_law (hclear : ∀ l : List FaultSource, ∀ s, P s → P (l.foldl (fun s src => clearSource src s) s))
    (hesc : ∀ s, P s → P (judgeEscalation s)) (hfirst : ∀ s, P s → P (judgeFirstFault s)) (x : BitVec 16) (s : State)
    (h : P s) : P (faultClear x s).state := by
  unfold faultClear
  split
  · exact h
  · exact hfirst _ (hesc _ (hclear _ _ h))

theorem judgeEscalation_law (he : ∀ s e, P s → P { s with faults := { s.faults with escalation := e } }) (s : State)
    (h : P s) : P (judgeEscalation s) := by
  unfold judgeEscalation
  split
  · exact h
  · exact he _ _ h

theorem setFaultActions_law (hset : ∀ s x, P s → P { s with settings := x })
    (he : ∀ s e, P s → P { s with faults := { s.faults with escalation := e } }) (a b : Nat) (s : State) (h : P s) :
    P (setFaultActions a b s).state := by
  unfold setFaultActions
  split
  · split
    · exact h
    · exact judgeEscalation_law he _ (hset _ _ h)
  · exact h

/-- Clearing sources one by one keeps what each clearing keeps. -/
theorem clearSources_law (hset : ∀ s src, P s → P (s.setSource src SourceState.reset)) (l : List FaultSource)
    (s : State) (h : P s) : P (l.foldl (fun s src => clearSource src s) s) := by
  induction l generalizing s with
  | nil => exact h
  | cons src l ih =>
    refine ih _ ?_
    show P (clearSource src s)
    unfold clearSource
    split
    · exact hset _ _ h
    · exact h

end Shared

/-! ## The first-fault record (R145) -/

/-- The field that the fault unit is. -/
def readsFaults : Field → Bool
  | .faults => true
  | _ => false

theorem anyFlag_elapse (dt : Nat) (s : State) : anyFlag (elapse dt s) = anyFlag s :=
  elapse_keeps anyFlag (fun _ _ => rfl) (fun _ _ => rfl) (fun _ _ => rfl) dt s

theorem firstFaultLaw_eventLaw : EventLaw firstFaultLaw where
  queue _ _ _ h := h
  blend _ _ h := h
  releaseDrives _ h := h
  stopping _ _ h := h
  released _ h := h
  cause _ _ h := h
  escalation _ _ h := h
  record src info s h := by
    unfold firstFaultLaw at h ⊢
    rw [raiseRecord_anyFlag, raiseRecord_first]
    split
    · rwa [h]
    · rfl
  time dt s h := by
    unfold firstFaultLaw at h ⊢
    rwa [anyFlag_elapse, elapse_faults]
  port _ _ _ _ h := h
  joysticks _ _ h := h
  timecode _ _ h := h
  staleLimits _ _ h := h
  estop _ h := h

theorem firstFaultLaw_frames : FrameLaw firstFaultLaw where
  raise := firstFaultLaw_eventLaw.raise
  released _ h := h
  queue _ _ _ h := h
  plain _ _ _ _ _ h := h
  report m s h := by
    unfold countReport
    simp only
    split
    · exact h
    · split <;> exact h
  drives _ _ _ h := h
  counts _ _ _ _ h := h

/-- A flag left set was set before, so the record it kept stands; and with no flag left the record is emptied. -/
theorem firstFaultLaw_faultClear (x : BitVec 16) (s : State) (h : firstFaultLaw s) :
    firstFaultLaw (faultClear x s).state := by
  have hflags : ∀ (l : List FaultSource) (s : State),
      (l.foldl (fun s src => clearSource src s) s).faults.first = s.faults.first ∧
      (anyFlag (l.foldl (fun s src => clearSource src s) s) = true → anyFlag s = true) := by
    intro l
    induction l with
    | nil => exact fun s => ⟨rfl, id⟩
    | cons src l ih =>
      intro s
      obtain ⟨hfirst, hany⟩ := ih (clearSource src s)
      refine ⟨hfirst.trans ?_, fun hl => ?_⟩
      · unfold clearSource
        split <;> rfl
      · obtain ⟨other, ho⟩ := anyFlag_eq_true.1 (hany hl)
        refine anyFlag_eq_true.2 ⟨other, ?_⟩
        unfold clearSource at ho
        split at ho
        · by_cases hsrc : other = src
          · subst hsrc
            simp [flagSet, SourceState.reset] at ho
          · rwa [flagSet, sourceState_setSource_other _ _ hsrc] at ho
        · exact ho
  unfold faultClear
  split
  · exact h
  · obtain ⟨hfirst, hany⟩ := hflags (namedSources x) s
    generalize (namedSources x).foldl (fun s src => clearSource src s) s = u at hfirst hany ⊢
    have hj : (judgeEscalation u).faults.first = s.faults.first ∧ anyFlag (judgeEscalation u) = anyFlag u := by
      unfold judgeEscalation
      split
      · exact ⟨hfirst, rfl⟩
      · exact ⟨hfirst, rfl⟩
    obtain ⟨hjf, hja⟩ := hj
    show firstFaultLaw (judgeFirstFault (judgeEscalation u))
    unfold judgeFirstFault
    split
    · rename_i hset
      unfold firstFaultLaw at h ⊢
      rw [hset, hjf, h]
      exact hany (hja ▸ hset)
    · rename_i hclear
      exact (Bool.eq_false_iff.2 hclear).symm

/-- Every command keeps the law of the first-fault record. -/
theorem firstFaultLaw_exec (i : Instr) (s t : State) (hs : firstFaultLaw s) (e : exec i s = .next t) :
    firstFaultLaw t := by
  have el := firstFaultLaw_eventLaw
  have c : Calm firstFaultLaw := el.toCalm
  have sync : SyncLaw firstFaultLaw := ⟨fun _ _ h => h, fun _ _ _ _ _ h => h⟩
  have free : ∀ f, readsFaults f = false → f.FreeIn firstFaultLaw := fun f hf => by
    cases f <;> first | exact fun _ _ => rfl | cases hf
  cases i
  case setStaleLimit | frameReceived | estop | genlockPulse | genlockLossEvent | staleEntry | escalationExpiry |
      stopTimerExpiry => exact el.exec rfl hs e
  case releaseClear =>
    refine c.request (body := releaseClear) (fun s h => ?_) hs e
    unfold releaseClear
    split
    · exact h
    · split
      · exact h
      · split
        · exact h
        · exact h
  case setFaultActions h a b =>
    exact c.request (privileged_law (setFaultActions_law (fun _ _ h => h) (fun _ _ h => h) a b)) hs e
  case faultClear h x => exact c.request (privileged_law (firstFaultLaw_faultClear x)) hs e
  case estopInactive => exact c.event (f := fun s => quiet (setEstop false s)) (fun _ h => h) hs e
  case configurationLoad dt a =>
    exact c.event (el.configurationLoad (FreeOf.of_disjoint free rfl) a) hs e
  case frameStart dt w => exact EventLaw.exec_frame c firstFaultLaw_frames sync hs (.inl e)
  case busSyncEdge dt w => exact EventLaw.exec_frame c firstFaultLaw_frames sync hs (.inr (.inl e))
  case busSyncLost dt =>
    exact EventLaw.exec_frame c firstFaultLaw_frames sync hs (w := Vector.replicate 16 none) (.inr (.inr e))
  case powerOn | lowSupply | resetPin | restart =>
    exact c.exec_reset (fun _ _ _ h => h) (fun _ _ _ => rfl) rfl hs e
  all_goals exact c.exec_disjoint free rfl rfl hs e

/-! ## The drive enables (R139, R141) -/

/-- The fields that the law of the drive enables looks at. -/
def readsBusFaults : Field → Bool
  | .bus | .faults => true
  | _ => false

theorem isEnabled_releaseDrives (s : State) (a : Axis) : isEnabled (releaseDrives s) a = false := by
  unfold isEnabled releaseDrives
  simp only [mapAt_get, AxisSet.has_full, if_true]
  rfl

/-- A state whose enables and latch are those of another, with the E-STOP input no more active, keeps its law. -/
theorem enableLaw_of_same {s t : State} (h : enableLaw s) (he : ∀ a, isEnabled t a = true → isEnabled s a = true)
    (hl : t.bus.latch = s.bus.latch) (hi : t.faults.estopActive = true → s.faults.estopActive = true) :
    enableLaw t := by
  obtain ⟨henabled, hactive⟩ := h
  refine ⟨fun a ha => ?_, fun ha => ?_⟩
  · rw [hl]
    exact henabled a (he a ha)
  · rw [hl]
    exact hactive (hi ha)

/-- With every drive released and the latch set the law holds whatever the input. -/
theorem enableLaw_of_released {s : State} (he : ∀ a, isEnabled s a = false) (hl : s.bus.latch = true) :
    enableLaw s :=
  ⟨fun a ha => absurd ha (by rw [he]; exact Bool.false_ne_true), fun _ => hl⟩

theorem isEnabled_elapse (dt : Nat) (s : State) (a : Axis) : isEnabled (elapse dt s) a = isEnabled s a := by
  unfold isEnabled
  rw [elapse_drives]

theorem raiseRecord_bus (src : FaultSource) (info : RaiseInfo) (s : State) : (raiseRecord src info s).bus = s.bus := by
  unfold raiseRecord
  split <;> rfl

theorem raiseRecord_queue (src : FaultSource) (info : RaiseInfo) (s : State) :
    (raiseRecord src info s).queue = s.queue := by
  unfold raiseRecord
  split <;> rfl

/-- A raise's record leaves the fault unit but for the sources and the first-fault record. -/
theorem raiseRecord_unit (src : FaultSource) (info : RaiseInfo) (s : State) :
    (raiseRecord src info s).faults.estopActive = s.faults.estopActive ∧
      (raiseRecord src info s).faults.safeStop = s.faults.safeStop ∧
      (raiseRecord src info s).faults.stopTimer = s.faults.stopTimer := by
  unfold raiseRecord
  split <;> exact ⟨rfl, rfl, rfl⟩

theorem enableLaw_eventLaw : EventLaw enableLaw where
  queue _ _ _ h := h
  blend _ _ h := h
  releaseDrives s _ := enableLaw_of_released (isEnabled_releaseDrives s) rfl
  stopping _ _ h := h
  released s _ := enableLaw_of_released (isEnabled_releaseDrives s) rfl
  cause _ _ h := h
  escalation _ _ h := h
  record src info s h := enableLaw_of_same h
    (fun a ha => by rwa [isEnabled, raiseRecord_bus] at ha) (by rw [raiseRecord_bus])
    fun ha => by rwa [(raiseRecord_unit src info s).1] at ha
  time dt s h := enableLaw_of_same h (fun a ha => by rwa [isEnabled_elapse] at ha) (elapse_latch dt s)
    fun ha => by rwa [elapse_faults] at ha
  port _ _ _ _ h := h
  joysticks _ _ h := h
  timecode _ _ h := h
  staleLimits _ _ h := h
  estop s _ := enableLaw_of_released (isEnabled_releaseDrives _) rfl

theorem enableLaw_frames : FrameLaw enableLaw where
  raise := enableLaw_eventLaw.raise
  released := enableLaw_eventLaw.released
  queue _ _ _ h := h
  plain _ _ _ _ _ h := h
  report m s h := by
    unfold countReport
    simp only
    split
    · exact h
    · split <;> exact h
  drives s x hx h := enableLaw_of_same h (fun a ha => by
    unfold isEnabled at ha ⊢
    rwa [← hx a]) rfl id
  counts _ _ _ _ h := h

theorem enableOutcome_enabled {m : Master} {s : State} {a : Axis} (h : enableOutcome m s a = .enabled) :
    isEnabled s a = true ∨ s.bus.latch = false := by
  unfold enableOutcome at h
  split at h
  · cases h
  · split at h
    · exact .inl ‹_›
    · split at h
      · cases h
      · exact .inr (Bool.eq_false_iff.2 ‹_›)

/-- ENABLE leaves ENABLED the axes that were, and others only with the latch clear. -/
theorem isEnabled_enable {m : Master} {x : AxisSet} {s : State} {a : Axis}
    (h : isEnabled (enable m x s).state a = true) : isEnabled s a = true ∨ s.bus.latch = false := by
  unfold enable at h
  split at h
  · exact .inl h
  · by_cases ha : AxisSet.has (enabledBy m x s) a = true
    · rw [enabledBy, AxisSet.has_ofTest, Bool.and_eq_true, beq_iff_eq] at ha
      exact enableOutcome_enabled ha.2
    · refine .inl ?_
      simpa [isEnabled, writeEnables, ha] using h

theorem isEnabled_disable {m : Master} {x : AxisSet} {s : State} {a : Axis}
    (h : isEnabled (disable m x s).state a = true) : isEnabled s a = true := by
  unfold disable at h
  split at h
  · exact h
  · by_cases ha : AxisSet.has (x &&& ownedBy s m) a = true
    · simp [isEnabled, writeEnables, ha] at h
    · simpa [isEnabled, writeEnables, ha] using h

theorem enable_latch (m : Master) (x : AxisSet) (s : State) : (enable m x s).state.bus.latch = s.bus.latch := by
  unfold enable
  split <;> rfl

theorem disable_latch (m : Master) (x : AxisSet) (s : State) : (disable m x s).state.bus.latch = s.bus.latch := by
  unfold disable
  split <;> rfl

theorem isEnabled_startBus (s : State) (a : Axis) : isEnabled (startBus s) a = isEnabled s a := by
  unfold isEnabled startBus updateDrives
  simp only [PerAxis.get_ofFn]
  split <;> rfl

theorem isEnabled_relimit (b : Axis) (l : Limits) (s : State) (a : Axis) :
    isEnabled (relimit b l s) a = isEnabled s a := by
  unfold isEnabled relimit
  simp only [PerAxis.get_set]
  split
  · rename_i h
    subst h
    rfl
  · rfl

/-- BUS START, BUS STOP and SET LIMITS leave the enables, the latch, the queue and the fault unit. -/
def stopView (s : State) : (Axis → Bool) × Bool × List Move × FaultUnit :=
  (isEnabled s, s.bus.latch, s.queue, s.faults)

theorem busStart_stopView (s : State) : stopView (busStart s).state = stopView s := by
  unfold busStart
  split
  · rfl
  · split
    · show (isEnabled (startBus s), _) = _
      rw [funext (isEnabled_startBus s)]
      rfl
    · rfl

theorem busStop_stopView (s : State) : stopView (busStop s).state = stopView s := by
  unfold busStop
  split
  · rfl
  · split
    · rfl
    · split <;> rfl

theorem setLimits_stopView (n : Nat) (l : Limits) (s : State) : stopView (setLimits n l s).state = stopView s := by
  unfold setLimits
  split
  · rfl
  · split
    · rfl
    · split
      · split
        · rfl
        · rename_i a _ _ _
          show (isEnabled (relimit a l s), _) = _
          rw [funext (isEnabled_relimit a l s)]
          rfl
      · rfl

/-- The law of the enables looks at nothing beside that view. -/
theorem enableLaw_of_stopView {s t : State} (h : enableLaw s) (hv : stopView t = stopView s) : enableLaw t := by
  simp only [stopView, Prod.mk.injEq] at hv
  obtain ⟨he, hl, _, hf⟩ := hv
  exact enableLaw_of_same h (fun a ha => by rwa [← he]) hl (fun ha => by rwa [← hf])

theorem enableLaw_releaseClear (s : State) (h : enableLaw s) : enableLaw (releaseClear s).state := by
  unfold releaseClear
  split
  · exact h
  · rename_i hinactive
    split
    · exact h
    · split
      · exact h
      · exact ⟨fun _ _ => rfl, fun ha => absurd ha hinactive⟩

/-- Every command keeps the law of the drive enables. -/
theorem enableLaw_exec (i : Instr) (s t : State) (hs : enableLaw s) (e : exec i s = .next t) : enableLaw t := by
  have el := enableLaw_eventLaw
  have c : Calm enableLaw := el.toCalm
  have sync : SyncLaw enableLaw := ⟨fun _ _ h => h, fun _ _ _ _ _ h => h⟩
  have free : ∀ f, readsBusFaults f = false → f.FreeIn enableLaw := fun f hf => by
    cases f <;> first | exact fun _ _ => rfl | cases hf
  cases i
  case setStaleLimit | frameReceived | estop | genlockPulse | genlockLossEvent | staleEntry | escalationExpiry |
      stopTimerExpiry => exact el.exec rfl hs e
  case enable h x =>
    refine c.request (body := enable h.link x) (fun s hs => ⟨fun a ha => ?_, fun ha => ?_⟩) hs e
    · rw [enable_latch]
      exact (isEnabled_enable ha).elim (hs.1 a) id
    · rw [enable_latch]
      refine hs.2 ?_
      rwa [enable_keeps (g := State.faults) (fun _ _ => rfl)] at ha
  case disable h x =>
    refine c.request (body := disable h.link x) (fun s hs => enableLaw_of_same hs (fun a => isEnabled_disable)
      (disable_latch _ _ s) fun ha => ?_) hs e
    rwa [disable_keeps (g := State.faults) (fun _ _ => rfl)] at ha
  case busStart h =>
    exact c.request (privileged_law fun s hs => enableLaw_of_stopView hs (busStart_stopView s)) hs e
  case busStop h => exact c.request (privileged_law fun s hs => enableLaw_of_stopView hs (busStop_stopView s)) hs e
  case setLimits h =>
    exact c.request (privileged_law fun s hs => enableLaw_of_stopView hs (setLimits_stopView _ _ s)) hs e
  case releaseClear => exact c.request enableLaw_releaseClear hs e
  case setFaultActions h a b =>
    exact c.request (privileged_law (setFaultActions_law (fun _ _ h => h) (fun _ _ h => h) a b)) hs e
  case faultClear h x =>
    refine c.request (privileged_law (faultClear_law (clearSources_law fun _ _ h => h)
      (judgeEscalation_law fun _ _ h => h) (fun s hs => ?_) x)) hs e
    unfold judgeFirstFault
    split <;> exact hs
  case estopInactive =>
    exact c.event (f := fun s => quiet (setEstop false s)) (fun s hs => ⟨hs.1, nofun⟩) hs e
  case configurationLoad dt a =>
    exact c.event (el.configurationLoad (FreeOf.of_disjoint free rfl) a) hs e
  case frameStart dt w => exact EventLaw.exec_frame c enableLaw_frames sync hs (.inl e)
  case busSyncEdge dt w => exact EventLaw.exec_frame c enableLaw_frames sync hs (.inr (.inl e))
  case busSyncLost dt =>
    exact EventLaw.exec_frame c enableLaw_frames sync hs (w := Vector.replicate 16 none) (.inr (.inr e))
  case powerOn | lowSupply | resetPin | restart =>
    exact c.exec_reset (fun _ _ _ h => h) (fun _ _ _ => enableLaw_of_released (fun a => by cases a <;> rfl) rfl) rfl hs e
  all_goals exact c.exec_disjoint free rfl rfl hs e

/-! ## The safe stop (R149, R150) -/

/-- The fields that the law of the safe stop looks at. -/
def readsStop : Field → Bool
  | .queue | .bus | .faults => true
  | _ => false

theorem safeStopLaw_of_same {s t : State} (h : safeStopLaw s) (hq : s.queue = [] → t.queue = [])
    (hl : t.bus.latch = s.bus.latch) (he : ∀ a, isEnabled t a = isEnabled s a)
    (hs : t.faults.safeStop = s.faults.safeStop) (ht : t.faults.stopTimer = s.faults.stopTimer) : safeStopLaw t := by
  obtain ⟨hreleased, htimer⟩ := h
  refine ⟨fun hr => ?_, by rw [ht, hs]; exact htimer⟩
  obtain ⟨hempty, hlatch, hnone⟩ := hreleased (hs ▸ hr)
  exact ⟨hq hempty, hl.trans hlatch, fun a => (he a).trans (hnone a)⟩

/-- The state that entry into RELEASED leaves. -/
theorem safeStopLaw_enterReleased (s : State) : safeStopLaw (enterReleased s).state :=
  ⟨fun _ => ⟨by simp [enterReleased], rfl, isEnabled_releaseDrives s⟩, nofun, nofun⟩

theorem safeStopLaw_releaseDrives {s : State} (h : safeStopLaw s) : safeStopLaw (releaseDrives s) := by
  obtain ⟨hreleased, htimer⟩ := h
  refine ⟨fun hr => ?_, htimer⟩
  obtain ⟨hempty, _, _⟩ := hreleased hr
  exact ⟨hempty, rfl, isEnabled_releaseDrives s⟩

theorem safeStopLaw_eventLaw : EventLaw safeStopLaw where
  queue s q hq h := safeStopLaw_of_same h (fun he => by rw [he] at hq; exact hq.eq_nil) rfl (fun _ => rfl) rfl rfl
  blend _ _ h := h
  releaseDrives _ h := safeStopLaw_releaseDrives h
  stopping _ _ _ := ⟨nofun, fun _ => rfl, fun _ => rfl⟩
  released s _ := safeStopLaw_enterReleased s
  cause _ _ h := h
  escalation _ _ h := h
  record src info s h := by
    obtain ⟨_, hstop, htimer⟩ := raiseRecord_unit src info s
    refine safeStopLaw_of_same h (by rw [raiseRecord_queue]; exact id) (by rw [raiseRecord_bus]) (fun a => ?_) hstop
      htimer
    unfold isEnabled
    rw [raiseRecord_bus]
  time dt s h := safeStopLaw_of_same h (by rw [elapse_queue]; exact id) (elapse_latch dt s) (isEnabled_elapse dt s)
    (by rw [elapse_faults]) (by rw [elapse_faults])
  port _ _ _ _ h := h
  joysticks _ _ h := h
  timecode _ _ h := h
  staleLimits _ _ h := h
  estop _ h := safeStopLaw_releaseDrives h

theorem safeStopLaw_frames : FrameLaw safeStopLaw where
  raise := safeStopLaw_eventLaw.raise
  released s _ := safeStopLaw_enterReleased s
  queue s q hq h := safeStopLaw_of_same h hq rfl (fun _ => rfl) rfl rfl
  plain _ _ _ _ _ h := h
  report m s h := by
    unfold countReport
    simp only
    split
    · exact h
    · split <;> exact h
  drives s x hx h := safeStopLaw_of_same h id rfl (fun a => by
    unfold isEnabled
    rw [← hx a]) rfl rfl
  counts _ _ _ _ h := h

theorem safeStopLaw_of_stopView {s t : State} (h : safeStopLaw s) (hv : stopView t = stopView s) :
    safeStopLaw t := by
  simp only [stopView, Prod.mk.injEq] at hv
  obtain ⟨he, hl, hq, hf⟩ := hv
  exact safeStopLaw_of_same h (by rw [hq]; exact id) hl (congrFun he) (by rw [hf]) (by rw [hf])

/-- In RELEASED the latch refuses every ENABLE. -/
theorem safeStopLaw_enable (m : Master) (x : AxisSet) (s : State) (h : safeStopLaw s) :
    safeStopLaw (enable m x s).state := by
  obtain ⟨hreleased, htimer⟩ := h
  have hf : (enable m x s).state.faults = s.faults := enable_keeps (g := State.faults) (fun _ _ => rfl) m x s
  have hq : (enable m x s).state.queue = s.queue := enable_keeps (g := State.queue) (fun _ _ => rfl) m x s
  refine ⟨fun hr => ?_, by rw [hf]; exact htimer⟩
  rw [hf] at hr
  obtain ⟨hempty, hlatch, hnone⟩ := hreleased hr
  refine ⟨hq.trans hempty, (enable_latch m x s).trans hlatch, fun a => Bool.eq_false_iff.2 fun ha => ?_⟩
  rcases isEnabled_enable ha with h | h
  · rw [hnone] at h
    cases h
  · rw [hlatch] at h
    cases h

theorem safeStopLaw_disable (m : Master) (x : AxisSet) (s : State) (h : safeStopLaw s) :
    safeStopLaw (disable m x s).state := by
  obtain ⟨hreleased, htimer⟩ := h
  have hf : (disable m x s).state.faults = s.faults := disable_keeps (g := State.faults) (fun _ _ => rfl) m x s
  have hq : (disable m x s).state.queue = s.queue := disable_keeps (g := State.queue) (fun _ _ => rfl) m x s
  refine ⟨fun hr => ?_, by rw [hf]; exact htimer⟩
  rw [hf] at hr
  obtain ⟨hempty, hlatch, hnone⟩ := hreleased hr
  refine ⟨hq.trans hempty, (disable_latch m x s).trans hlatch, fun a => Bool.eq_false_iff.2 fun ha => ?_⟩
  have := isEnabled_disable ha
  rw [hnone] at this
  cases this

theorem safeStopLaw_releaseClear (s : State) (h : safeStopLaw s) : safeStopLaw (releaseClear s).state := by
  unfold releaseClear
  split
  · exact h
  · split
    · exact h
    · rename_i hstopping
      split
      · exact h
      · exact ⟨nofun, fun ht => absurd (h.2.1 ht) hstopping, nofun⟩

/-- A RECALL adds a move in NORMAL alone, and leaves the fault unit and the bus. -/
theorem recallResolved_released (m : Master) (n : Nat) (x : AxisSet) (v : Nat) (c : Cue) (p : Policy) (s : State)
    (h : s.faults.safeStop ≠ .normal) : (recallResolved m n x v c p s).state = s := by
  unfold recallResolved
  have hcheck : ∃ code, (recordCheck s m n <|> recallChecks s m (moveAxes s n x) c p) = some code := by
    have hstop : failing (s.faults.safeStop == .normal) .faultStop = some .faultStop := by
      simp [failing, h]
    unfold recallChecks
    rw [hstop]
    cases recordCheck s m n with
    | some code => exact ⟨code, rfl⟩
    | none =>
      cases failing (moveAxes s n x != 0#8) .emptyAxes with
      | some code => exact ⟨code, rfl⟩
      | none =>
        cases failing (moveAxes s n x &&& ~~~(ownedBy s m) == 0#8) .notOwner with
        | some code => exact ⟨code, rfl⟩
        | none => exact ⟨_, rfl⟩
  obtain ⟨code, hcode⟩ := hcheck
  rw [hcode]
  rfl

theorem safeStopLaw_recallResolved (m : Master) (n : Nat) (x : AxisSet) (v : Nat) (c : Cue) (p : Policy) (s : State)
    (h : safeStopLaw s) : safeStopLaw (recallResolved m n x v c p s).state := by
  by_cases hn : s.faults.safeStop = .normal
  · have hf : (recallResolved m n x v c p s).state.faults = s.faults :=
      recallResolved_keeps (g := State.faults) ⟨fun _ _ => rfl⟩ (fun _ _ => rfl) (fun _ _ => rfl) m n x v c p s
    refine ⟨fun hr => ?_, by rw [hf]; exact h.2⟩
    rw [hf, hn] at hr
    cases hr
  · rw [recallResolved_released m n x v c p s hn]
    exact h

/-- Commands that write the queue, but neither the bus nor the fault unit. -/
theorem safeStopLaw_exec_queue {i : Instr} (hr : isReset i = false) (hi : isRecall i = false)
    (hd : (footprint i).all (fun f => !(readsBusFaults f)) = true) {s t : State} (hs : safeStopLaw s)
    (e : exec i s = .next t) : safeStopLaw t := by
  let view : State → (Axis → Bool) × Bool × FaultUnit := fun s => (isEnabled s, s.bus.latch, s.faults)
  have hview : view t = view s := by
    refine Calm.exec_disjoint (P := fun t => view t = view s) (reads := readsBusFaults)
      ⟨fun dt u hu => ?_, fun _ _ _ _ h => h⟩ (fun f hf => ?_) hr hd rfl e
    · rw [← hu]
      simp only [view, elapse_latch, elapse_faults, funext (isEnabled_elapse dt u)]
    · cases f <;> first | exact fun _ _ => rfl | cases hf
  simp only [view, Prod.mk.injEq] at hview
  obtain ⟨he, hl, hf⟩ := hview
  have hq : Shrunk s.queue t.queue := exec_shrunk hi e
  exact safeStopLaw_of_same hs (fun hempty => by rw [hempty] at hq; exact hq.eq_nil) hl (congrFun he) (by rw [hf])
    (by rw [hf])

/-- Every command keeps the law of the safe stop. -/
theorem safeStopLaw_exec (i : Instr) (s t : State) (hs : safeStopLaw s) (e : exec i s = .next t) :
    safeStopLaw t := by
  have el := safeStopLaw_eventLaw
  have c : Calm safeStopLaw := el.toCalm
  have sync : SyncLaw safeStopLaw := ⟨fun _ _ h => h, fun _ _ _ _ _ h => h⟩
  have free : ∀ f, readsStop f = false → f.FreeIn safeStopLaw := fun f hf => by
    cases f <;> first | exact fun _ _ => rfl | cases hf
  cases i
  case setStaleLimit | frameReceived | estop | genlockPulse | genlockLossEvent | staleEntry | escalationExpiry |
      stopTimerExpiry => exact el.exec rfl hs e
  case enable h x => exact c.request (safeStopLaw_enable h.link x) hs e
  case disable h x => exact c.request (safeStopLaw_disable h.link x) hs e
  case busStart h =>
    exact c.request (privileged_law fun s hs => safeStopLaw_of_stopView hs (busStart_stopView s)) hs e
  case busStop h => exact c.request (privileged_law fun s hs => safeStopLaw_of_stopView hs (busStop_stopView s)) hs e
  case setLimits h =>
    exact c.request (privileged_law fun s hs => safeStopLaw_of_stopView hs (setLimits_stopView _ _ s)) hs e
  case releaseClear => exact c.request safeStopLaw_releaseClear hs e
  case setFaultActions h a b =>
    exact c.request (privileged_law (setFaultActions_law (fun _ _ h => h) (fun _ _ h => h) a b)) hs e
  case faultClear h x =>
    refine c.request (privileged_law (faultClear_law (clearSources_law fun _ _ h => h)
      (judgeEscalation_law fun _ _ h => h) (fun s hs => ?_) x)) hs e
    unfold judgeFirstFault
    split <;> exact hs
  case estopInactive => exact c.event (f := fun s => quiet (setEstop false s)) (fun _ h => h) hs e
  case configurationLoad dt a =>
    exact c.event (el.configurationLoad (FreeOf.of_disjoint free rfl) a) hs e
  case frameStart dt w => exact EventLaw.exec_frame c safeStopLaw_frames sync hs (.inl e)
  case busSyncEdge dt w => exact EventLaw.exec_frame c safeStopLaw_frames sync hs (.inr (.inl e))
  case busSyncLost dt =>
    exact EventLaw.exec_frame c safeStopLaw_frames sync hs (w := Vector.replicate 16 none) (.inr (.inr e))
  case recallCue h b q f v cu p =>
    refine c.request (body := recallMove h.link b q f v cu p) (fun s hs => recallMove_law hs ?_
      fun n x k q s hs => safeStopLaw_recallResolved _ _ _ _ _ _ _ hs) hs e
    rw [resolve_keeps (g := safeStopLaw) (fun _ _ => rfl)]
    exact hs
  case powerOn | lowSupply | resetPin | restart =>
    exact c.exec_reset (fun _ _ _ h => h)
      (fun _ _ _ => ⟨fun _ => ⟨rfl, rfl, fun a => by cases a <;> rfl⟩, nofun, nofun⟩) rfl hs e
  case claim | release | yield | seize | withdrawWait | setMode | takeLive | go | abort | speed | setTimecode |
      offsetTimecode | setRate => exact safeStopLaw_exec_queue rfl rfl rfl hs e
  all_goals exact c.exec_disjoint free rfl rfl hs e

/-- Settles O58: a raise records with its flag and stops through RELEASED, which releases every drive and empties the
queue; ENABLE needs the latch clear; RECALL needs NORMAL; and RELEASE CLEAR needs the E-STOP input inactive. -/
theorem stepsKeepFaultLaws : Obligations.StepsKeepFaultLaws := by
  intro s t hfirst henable hstop e
  exact ⟨step_keeps firstFaultLaw_eventLaw.time (fun _ _ h => h) firstFaultLaw_exec hfirst e,
    step_keeps enableLaw_eventLaw.time (fun _ _ h => h) enableLaw_exec henable e,
    step_keeps safeStopLaw_eventLaw.time (fun _ _ h => h) safeStopLaw_exec hstop e⟩

end Sys2Proof.Machine
end

section
/-! PROOFS. The laws of authority and of the move queue through every step (O59). -/

namespace Sys2Proof.Machine

/-! ## Authority records (R15) -/

/-- What a filter of the waiting list leaves of a lawful record. -/
theorem Authority.lawful_filter {r : Authority} (p : WaitEntry → Bool) (h : r.lawful) :
    { r with waiting := r.waiting.filter p }.lawful := by
  obtain ⟨hlen, hnodup, howner, hnone, hyield⟩ := h
  refine ⟨Nat.le_trans (List.length_filter_le _ _) hlen, hnodup.sublist (List.filter_sublist.map _),
    fun e he => howner e ((List.mem_filter.1 he).1), fun ho => ?_, fun hy => ?_⟩
  · obtain ⟨hw, hy⟩ := hnone ho
    exact ⟨by rw [hw]; rfl, hy⟩
  · show r.waiting.filter p = []
    rw [hyield hy]
    rfl

theorem Authority.lawful_giveTo {r : Authority} (m : Master) (h : r.lawful) : (r.giveTo m).lawful := by
  obtain ⟨hlen, hnodup, _⟩ := h
  refine ⟨Nat.le_trans (List.length_filter_le _ _) hlen, hnodup.sublist (List.filter_sublist.map _),
    fun e he ho => ?_, nofun, nofun⟩
  have hne : (e.waiter != m) = true := (List.mem_filter.1 he).2
  rw [← Option.some.inj ho] at hne
  simp at hne

/-- Three masters: beside the owner and one more there is at most one that waits. -/
theorem waiting_length_le_one {r : Authority} {o m : Master} (h : r.lawful) (ho : r.owner = some o) (hne : o ≠ m)
    (hm : ∀ e ∈ r.waiting, e.waiter ≠ m) : r.waiting.length ≤ 1 := by
  obtain ⟨_, hnodup, howner, _⟩ := h
  have hall : (o :: m :: r.waiting.map WaitEntry.waiter).Nodup := by
    refine List.nodup_cons.2 ⟨fun hin => ?_, List.nodup_cons.2 ⟨fun hin => ?_, hnodup⟩⟩
    · rcases List.mem_cons.1 hin with rfl | hin
      · exact hne rfl
      · obtain ⟨e, he, hw⟩ := List.mem_map.1 hin
        exact howner e he (by rw [ho, hw])
    · obtain ⟨e, he, hw⟩ := List.mem_map.1 hin
      exact hm e he hw
  have hle := hall.length_le_of_subset fun m _ => Master.mem_all m
  simp only [List.length_cons, List.length_map] at hle
  have : Master.all.length = 3 := rfl
  omega

theorem placeOf_eq_none {m : Master} {l : List WaitEntry} (h : placeOf m l = none) : ∀ e ∈ l, e.waiter ≠ m := by
  intro e he hw
  have hnone : l.find? (fun e => e.waiter == m) = none := Option.map_eq_none_iff.1 h
  exact List.find?_eq_none.1 hnone e he (by simp [hw])

theorem claimVerdict_lawful (now : Nat) (m : Master) (wait : Nat) (r : Authority) (h : r.lawful) :
    (claimVerdict now m wait r).record.lawful := by
  unfold claimVerdict
  split
  · exact Authority.lawful_giveTo m h
  · rename_i o ho
    split
    · exact h
    · rename_i hne
      split
      · exact Authority.lawful_giveTo m h
      · rename_i hyield
        split
        · exact h
        · rename_i hplace
          split
          · exact h
          · have hnone := placeOf_eq_none hplace
            have hone := waiting_length_le_one h ho hne hnone
            obtain ⟨_, hnodup, howner, _, _⟩ := h
            refine ⟨by rw [Verdict.keep_record, List.length_append]; exact Nat.succ_le_succ hone, ?_, fun e he => ?_,
              fun hno => ?_, fun hy => absurd hy hyield⟩
            · simp only [Verdict.keep_record, List.map_append, List.map_cons, List.map_nil]
              refine List.nodup_append.2 ⟨hnodup, nodup_one _, fun a ha b hb => ?_⟩
              obtain ⟨e, he, rfl⟩ := List.mem_map.1 ha
              rw [List.mem_singleton.1 hb]
              exact hnone e he
            · rcases List.mem_append.1 he with he | he
              · exact howner e he
              · rw [List.mem_singleton.1 he, Verdict.keep_record, ho]
                exact fun heq => hne (Option.some.inj heq)
            · rw [Verdict.keep_record, ho] at hno
              cases hno

theorem releaseVerdict_lawful (m : Master) (r : Authority) (h : r.lawful) : (releaseVerdict m r).record.lawful := by
  unfold releaseVerdict
  split
  · split
    · exact ⟨Nat.zero_le _, List.nodup_nil, nofun, fun _ => ⟨rfl, rfl⟩, nofun⟩
    · exact Authority.lawful_giveTo _ h
  · exact h

theorem yieldVerdict_lawful (m : Master) (on : Bool) (r : Authority) (h : r.lawful) :
    (yieldVerdict m on r).record.lawful := by
  unfold yieldVerdict
  split
  · rename_i ho
    split
    · split
      · rename_i hw
        refine ⟨h.1, h.2.1, h.2.2.1, fun hno => ?_, fun _ => hw⟩
        rw [Verdict.keep_record, ho] at hno
        cases hno
      · exact Authority.lawful_giveTo _ h
    · obtain ⟨hlen, hnodup, howner, hnone, _⟩ := h
      exact ⟨hlen, hnodup, howner, fun hno => ⟨(hnone hno).1, rfl⟩, nofun⟩
  · exact h

theorem seizeVerdict_lawful (m : Master) (stale : Master → Bool) (r : Authority) (h : r.lawful) :
    (seizeVerdict m stale r).record.lawful := by
  unfold seizeVerdict
  split
  · exact Authority.lawful_giveTo m h
  · split
    · exact h
    · split
      · exact Authority.lawful_giveTo m h
      · exact h

theorem withdrawWaitVerdict_lawful (m : Master) (r : Authority) (h : r.lawful) :
    (withdrawWaitVerdict m r).record.lawful := by
  unfold withdrawWaitVerdict
  split
  · exact Authority.lawful_filter _ h
  · exact h

/-- A verdict that changes no owner leaves the owner. -/
def Verdict.Honest (r : Authority) (v : Verdict) : Prop := v.changed = false → v.record.owner = r.owner

theorem claimVerdict_honest (now : Nat) (m : Master) (wait : Nat) (r : Authority) :
    (claimVerdict now m wait r).Honest r := by
  unfold claimVerdict
  repeat' split
  all_goals first | exact fun _ => rfl | exact nofun

theorem releaseVerdict_honest (m : Master) (r : Authority) : (releaseVerdict m r).Honest r := by
  unfold releaseVerdict
  repeat' split
  all_goals first | exact fun _ => rfl | exact nofun

theorem yieldVerdict_honest (m : Master) (on : Bool) (r : Authority) : (yieldVerdict m on r).Honest r := by
  unfold yieldVerdict
  repeat' split
  all_goals first | exact fun _ => rfl | exact nofun

theorem seizeVerdict_honest (m : Master) (stale : Master → Bool) (r : Authority) :
    (seizeVerdict m stale r).Honest r := by
  unfold seizeVerdict
  repeat' split
  all_goals first | exact fun _ => rfl | exact nofun

theorem withdrawWaitVerdict_honest (m : Master) (r : Authority) : (withdrawWaitVerdict m r).Honest r := by
  unfold withdrawWaitVerdict
  split <;> exact fun _ => rfl

/-! ## The records through every command -/

/-- The field that the authority records are. -/
def readsAuthority : Field → Bool
  | .authority => true
  | _ => false

theorem authorityLaw_calm : Calm authorityLaw where
  time dt s h := by
    intro a
    rw [elapse_authority]
    exact h a
  port _ _ _ _ h := h

theorem authorityLaw_request {x : AxisSet} {b : Bool} {v : State → Axis → Verdict}
    (hv : ∀ s a, (s.authority.get a).lawful → (v s a).record.lawful) (s : State) (h : authorityLaw s) :
    authorityLaw (authorityRequest x b v s).state := by
  have hevent : authorityLaw (recordVerdicts x (v s) s) := by
    intro a
    show Authority.lawful (PerAxis.get (PerAxis.ofFn _) a)
    rw [PerAxis.get_ofFn]
    split
    · exact hv s a (h a)
    · exact h a
  unfold authorityRequest
  split
  · exact h
  · split
    · exact hevent
    · exact h

theorem authorityLaw_waitExpiry (m : Master) (s : State) (h : authorityLaw s) :
    authorityLaw (waitExpiry m s).state := by
  unfold waitExpiry
  split
  · exact h
  · intro a
    show Authority.lawful (PerAxis.get (PerAxis.ofFn _) a)
    rw [PerAxis.get_ofFn]
    exact Authority.lawful_filter _ (h a)

/-- Every command keeps every authority record lawful. -/
theorem authorityLaw_exec (i : Instr) (s t : State) (hs : authorityLaw s) (e : exec i s = .next t) :
    authorityLaw t := by
  have c := authorityLaw_calm
  have free : ∀ f, readsAuthority f = false → f.FreeIn authorityLaw := fun f hf => by
    cases f <;> first | exact fun _ _ => rfl | cases hf
  cases i
  case claim h x w => exact c.request (authorityLaw_request fun s a => claimVerdict_lawful _ _ _ _) hs e
  case release h x => exact c.request (authorityLaw_request fun s a => releaseVerdict_lawful _ _) hs e
  case yield h x on => exact c.request (authorityLaw_request fun s a => yieldVerdict_lawful _ _ _) hs e
  case seize h x => exact c.request (authorityLaw_request fun s a => seizeVerdict_lawful _ _ _) hs e
  case withdrawWait h x => exact c.request (authorityLaw_request fun s a => withdrawWaitVerdict_lawful _ _) hs e
  case waitExpiry dt m => exact c.event (authorityLaw_waitExpiry m) hs e
  case powerOn | lowSupply | resetPin | restart =>
    refine c.exec_reset (fun _ _ _ h => h) (fun _ _ _ a => ?_) rfl hs e
    show Authority.lawful (PerAxis.get (PerAxis.fill Authority.reset) a)
    rw [PerAxis.get_fill]
    exact ⟨Nat.zero_le _, List.nodup_nil, nofun, fun _ => ⟨rfl, rfl⟩, nofun⟩
  all_goals exact c.exec_disjoint free rfl rfl hs e

/-! ## The id a RECALL gives (R80) -/

theorem idAfter_range (n : Nat) : 1 ≤ idAfter n ∧ idAfter n ≤ 255 := by
  unfold idAfter
  split <;> omega

theorem freeId_range (held : List Nat) (places : Nat) {n : Nat} (h : 1 ≤ n ∧ n ≤ 255) :
    1 ≤ freeId held places n ∧ freeId held places n ≤ 255 := by
  induction places generalizing n with
  | zero => exact h
  | succ places ih =>
    unfold freeId
    split
    · exact ih (idAfter_range n)
    · exact h

/-- The id some places above an id, wrapping from 255 to 1. -/
def idAbove (n j : Nat) : Nat := if n + j ≤ 255 then n + j else n + j - 255

theorem idAbove_idAfter {n j : Nat} (h : 1 ≤ n ∧ n ≤ 255) (hj : j < 255) :
    idAbove (idAfter n) j = idAbove n (j + 1) := by
  unfold idAbove idAfter
  split <;> split <;> split <;> omega

/-- A search that ends at a held id found every id on its way held. -/
theorem held_of_freeId_held {held : List Nat} {places n : Nat} (h : 1 ≤ n ∧ n ≤ 255) (hp : places ≤ 255)
    (hend : freeId held places n ∈ held) : ∀ j < places, idAbove n j ∈ held := by
  induction places generalizing n with
  | zero => exact fun j hj => absurd hj (Nat.not_lt_zero j)
  | succ places ih =>
    unfold freeId at hend
    split at hend
    · rename_i hheld
      intro j hj
      cases j with
      | zero =>
        have h0 : idAbove n 0 = n := if_pos h.2
        rw [h0]
        exact List.contains_iff_mem.1 hheld
      | succ j =>
        rw [← idAbove_idAfter h (by omega)]
        exact ih (idAfter_range n) (by omega) hend j (by omega)
    · rename_i hfree
      exact absurd (List.contains_iff_mem.2 hend) hfree

/-- With fewer than 8 ids held the search ends at one that is not. -/
theorem freeId_not_held {held : List Nat} {n : Nat} (h : 1 ≤ n ∧ n ≤ 255) (hlen : held.length < 8) :
    freeId held 255 n ∉ held := by
  intro hend
  have hheld := held_of_freeId_held h (Nat.le_refl _) hend
  have hnodup : ((List.range 8).map (idAbove n)).Nodup := by
    refine nodup_map_of (fun i hi j hj hij => ?_) List.nodup_range
    rw [List.mem_range] at hi hj
    unfold idAbove at hij
    split at hij <;> split at hij <;> omega
  have hsub : (List.range 8).map (idAbove n) ⊆ held := by
    intro id hid
    obtain ⟨j, hj, rfl⟩ := List.mem_map.1 hid
    exact hheld j (by rw [List.mem_range] at hj; omega)
  have hle := hnodup.length_le_of_subset hsub
  rw [List.length_map, List.length_range] at hle
  omega

/-! ## RECALL on the queue (R81 to R83) -/

@[simp] theorem failing_eq_none {b : Bool} {c : RefusalCode} : failing b c = none ↔ b = true := by
  cases b <;> simp [failing]

theorem failing_true (c : RefusalCode) : failing true c = none := rfl

theorem failing_false (c : RefusalCode) : failing false c = some c := rfl

/-- The queue and the fields beside it that the CUT removals leave. -/
theorem cutMoves_queue (p : Policy) (x : AxisSet) (s : State) :
    (cutMoves p x s).state.queue = s.queue.filter fun q => !(cutBy p x q) := by
  unfold cutMoves
  rw [removeMoves_queue, leaveAxes_keeps (g := State.queue) (fun _ _ => rfl)]

theorem cutMoves_nextMoveId (p : Policy) (x : AxisSet) (s : State) :
    (cutMoves p x s).state.nextMoveId = s.nextMoveId :=
  cutMoves_keeps (g := State.nextMoveId) ⟨fun _ _ => rfl⟩ (fun _ _ => rfl) p x s

theorem cutMoves_authority (p : Policy) (x : AxisSet) (s : State) :
    (cutMoves p x s).state.authority = s.authority :=
  cutMoves_keeps (g := State.authority) ⟨fun _ _ => rfl⟩ (fun _ _ => rfl) p x s

/-- A RECALL behind its resolution is refused, or is accepted on axes that its master owns, with a place for the
move. -/
theorem recallResolved_cases (m : Master) (n : Nat) (f : AxisSet) (v : Nat) (c : Cue) (p : Policy) (s : State) :
    (∃ code, recallResolved m n f v c p s = refuse s code) ∨
      recallResolved m n f v c p s = recallAccepted m n (moveAxes s n f) v c p s ∧ moveAxes s n f ≠ 0#8 ∧
        (∀ a, AxisSet.has (moveAxes s n f) a = true → ownerOf s a = some m) ∧
        (s.queue.filter fun q => !(cutBy p (moveAxes s n f) q)).length < 8 := by
  unfold recallResolved
  cases hcheck : (recordCheck s m n <|> recallChecks s m (moveAxes s n f) c p) with
  | some code => exact .inl ⟨code, rfl⟩
  | none =>
    refine .inr ⟨rfl, ?_⟩
    simp only [recallChecks, orElse_eq_none_iff, failing_eq_none, bne_iff_ne, beq_iff_eq, decide_eq_true_eq]
      at hcheck
    obtain ⟨_, hne, howned, _, _, _, hroom⟩ := hcheck
    refine ⟨hne, fun a ha => ?_, hroom⟩
    have hmem := congrArg (fun x => AxisSet.has x a) howned
    simpa [ownedBy, ha] using hmem

/-! ## The queue's law and the ownership of moves -/

theorem queueLaw_of_shrunk {s t : State} (h : queueLaw s) (hq : Shrunk s.queue t.queue)
    (hn : t.nextMoveId = s.nextMoveId) : queueLaw t := by
  obtain ⟨hlen, hnodup, hids, hlo, hhi⟩ := h
  obtain ⟨hsub, _⟩ := hq
  refine ⟨?_, hnodup.sublist hsub, fun m hm => ?_, hn ▸ hlo, hn ▸ hhi⟩
  · have := hsub.length_le
    rw [List.length_map, List.length_map] at this
    exact Nat.le_trans this hlen
  · obtain ⟨m', hm', hid⟩ := List.mem_map.1 (hsub.subset (List.mem_map_of_mem hm))
    rw [← hid]
    exact hids m' hm'

theorem ownershipLaw_of_shrunk {s t : State} (h : ownershipLaw s) (hq : Shrunk s.queue t.queue)
    (ho : ∀ a, ownerOf t a = ownerOf s a) : ownershipLaw t := by
  intro m' hm'
  obtain ⟨m, hm, hreq, haxes, hne⟩ := hq.2 m' hm'
  obtain ⟨hm0, howned⟩ := h m hm
  exact ⟨hne hm0, fun a ha => by rw [ho, hreq]; exact howned a (haxes a ha)⟩

theorem queueLaw_calm : Calm queueLaw where
  time dt s h := by
    unfold queueLaw
    rw [elapse_queue, elapse_nextMoveId]
    exact h
  port _ _ _ _ h := h

theorem ownershipLaw_calm : Calm ownershipLaw where
  time dt s h := by
    unfold ownershipLaw ownerOf
    rw [elapse_queue, elapse_authority]
    exact h
  port _ _ _ _ h := h

theorem queueLaw_takeReset (c : ResetCause) (s : State) : queueLaw (takeReset c s) :=
  ⟨Nat.zero_le _, List.nodup_nil, fun _ h => absurd h List.not_mem_nil, Nat.le_refl 1, (by decide : 1 ≤ 255)⟩

theorem ownershipLaw_takeReset (c : ResetCause) (s : State) : ownershipLaw (takeReset c s) :=
  fun _ h => absurd h List.not_mem_nil

theorem queueLaw_recallResolved (m : Master) (n : Nat) (f : AxisSet) (v : Nat) (c : Cue) (p : Policy) (s : State)
    (h : queueLaw s) : queueLaw (recallResolved m n f v c p s).state := by
  rcases recallResolved_cases m n f v c p s with ⟨code, he⟩ | ⟨he, _, _, hroom⟩
  · rw [he]
    exact h
  · rw [he]
    have hcut : queueLaw (cutMoves p (moveAxes s n f) s).state :=
      queueLaw_of_shrunk h (by rw [cutMoves_queue]; exact .filter _ _) (cutMoves_nextMoveId _ _ _)
    rw [← cutMoves_queue] at hroom
    show queueLaw (appendMove m n (moveAxes s n f) c v (cutMoves p (moveAxes s n f) s).state)
    generalize (cutMoves p (moveAxes s n f) s).state = u at hcut hroom ⊢
    obtain ⟨hlen, hnodup, hids, hlo, hhi⟩ := hcut
    have hfree : newId u ∉ u.queue.map Move.id :=
      freeId_not_held ⟨hlo, hhi⟩ (by rw [List.length_map]; exact hroom)
    have hrange : 1 ≤ newId u ∧ newId u ≤ 255 := freeId_range _ _ ⟨hlo, hhi⟩
    obtain ⟨halo, hahi⟩ := idAfter_range (newId u)
    refine ⟨?_, ?_, fun q hq => ?_, halo, hahi⟩
    · show (u.queue ++ [_]).length ≤ 8
      rw [List.length_append]
      exact hroom
    · show ((u.queue ++ [_]).map Move.id).Nodup
      rw [List.map_append]
      refine List.nodup_append.2 ⟨hnodup, nodup_one _, fun a ha b hb hab => ?_⟩
      rw [List.mem_singleton.1 hb] at hab
      exact hfree (by rw [hab] at ha; exact ha)
    · rcases List.mem_append.1 hq with hq | hq
      · exact hids q hq
      · rw [List.mem_singleton.1 hq]
        exact hrange

theorem ownershipLaw_recallResolved (m : Master) (n : Nat) (f : AxisSet) (v : Nat) (c : Cue) (p : Policy) (s : State)
    (h : ownershipLaw s) : ownershipLaw (recallResolved m n f v c p s).state := by
  rcases recallResolved_cases m n f v c p s with ⟨code, he⟩ | ⟨he, hne, howned, _⟩
  · rw [he]
    exact h
  · rw [he]
    have howner : ∀ a, ownerOf (cutMoves p (moveAxes s n f) s).state a = ownerOf s a := fun a => by
      unfold ownerOf
      rw [cutMoves_authority]
    have hcut : ownershipLaw (cutMoves p (moveAxes s n f) s).state :=
      ownershipLaw_of_shrunk h (by rw [cutMoves_queue]; exact .filter _ _) howner
    intro q hq
    rcases List.mem_append.1 hq with hq | hq
    · exact hcut q hq
    · rw [List.mem_singleton.1 hq]
      exact ⟨hne, fun a ha => (howner a).trans (howned a ha)⟩

/-- A request of the authority table withdraws the axes whose owner it changes. -/
theorem ownershipLaw_request {x : AxisSet} {b : Bool} {v : State → Axis → Verdict}
    (hv : ∀ s a, (v s a).Honest (s.authority.get a)) (s : State) (h : ownershipLaw s) :
    ownershipLaw (authorityRequest x b v s).state := by
  have howner : ∀ a, AxisSet.has (changedSet x (v s)) a = false →
      ownerOf (recordVerdicts x (v s) s) a = ownerOf s a := by
    intro a ha
    unfold ownerOf recordVerdicts
    rw [PerAxis.get_ofFn]
    split
    · rename_i hx
      refine hv s a ?_
      rw [changedSet, AxisSet.has_ofTest, hx, Bool.true_and] at ha
      exact ha
    · rfl
  unfold authorityRequest
  split
  · exact h
  · split
    · intro q hq
      obtain ⟨hmap, hkept⟩ := List.mem_filter.1 hq
      obtain ⟨m, hm, rfl⟩ := List.mem_map.1 hmap
      obtain ⟨_, howned⟩ := h m hm
      refine ⟨by simpa [Move.emptied] using hkept, fun a ha => ?_⟩
      rw [Move.withdraw_axes, AxisSet.has_and, AxisSet.has_not, Bool.and_eq_true, Bool.not_eq_true'] at ha
      exact (howner a ha.2).trans (howned a ha.1)
    · exact h

theorem waitExpiry_owner (m : Master) (s : State) (a : Axis) : ownerOf (waitExpiry m s).state a = ownerOf s a := by
  unfold waitExpiry
  split
  · rfl
  · unfold ownerOf expireAt
    rw [PerAxis.get_ofFn]

/-- The field that the counter of move ids is. -/
def readsNextId : Field → Bool
  | .nextMoveId => true
  | _ => false

/-- Every command keeps the law of the move queue. -/
theorem queueLaw_exec (i : Instr) (s t : State) (hs : queueLaw s) (e : exec i s = .next t) : queueLaw t := by
  have c := queueLaw_calm
  have hsteady : Calm fun t => t.nextMoveId = s.nextMoveId :=
    ⟨fun dt u hu => by rwa [elapse_nextMoveId], fun _ _ _ _ h => h⟩
  have free : ∀ f, readsNextId f = false → f.FreeIn fun t => t.nextMoveId = s.nextMoveId := fun f hf => by
    cases f <;> first | exact fun _ _ => rfl | cases hf
  cases i
  case recallCue h b q f v cu p =>
    refine c.request (body := recallMove h.link b q f v cu p) (fun s hs => recallMove_law hs ?_
      fun n x k q s hs => queueLaw_recallResolved _ _ _ _ _ _ _ hs) hs e
    rw [resolve_keeps (g := queueLaw) (fun _ _ => rfl)]
    exact hs
  case powerOn | lowSupply | resetPin | restart =>
    exact c.exec_reset (fun _ _ _ h => h) (fun _ _ _ => queueLaw_takeReset _ _) rfl hs e
  all_goals
    exact queueLaw_of_shrunk hs (exec_shrunk rfl e) (hsteady.exec_disjoint free rfl rfl rfl e)

/-- Every command keeps every axis of every move owned by its requester. -/
theorem ownershipLaw_exec (i : Instr) (s t : State) (hs : ownershipLaw s) (e : exec i s = .next t) :
    ownershipLaw t := by
  have c := ownershipLaw_calm
  have hsteady : Calm fun t => t.authority = s.authority :=
    ⟨fun dt u hu => by rwa [elapse_authority], fun _ _ _ _ h => h⟩
  have free : ∀ f, readsAuthority f = false → f.FreeIn fun t => t.authority = s.authority := fun f hf => by
    cases f <;> first | exact fun _ _ => rfl | cases hf
  cases i
  case claim h x w => exact c.request (ownershipLaw_request fun s a => claimVerdict_honest _ _ _ _) hs e
  case release h x => exact c.request (ownershipLaw_request fun s a => releaseVerdict_honest _ _) hs e
  case yield h x on => exact c.request (ownershipLaw_request fun s a => yieldVerdict_honest _ _ _) hs e
  case seize h x => exact c.request (ownershipLaw_request fun s a => seizeVerdict_honest _ _ _) hs e
  case withdrawWait h x => exact c.request (ownershipLaw_request fun s a => withdrawWaitVerdict_honest _ _) hs e
  case waitExpiry dt m =>
    refine c.event (f := waitExpiry m) (fun s hs => ownershipLaw_of_shrunk hs ?_ (waitExpiry_owner m s)) hs e
    rw [waitExpiry_keeps (g := State.queue) (fun _ _ => rfl)]
    exact .refl _
  case recallCue h b q f v cu p =>
    refine c.request (body := recallMove h.link b q f v cu p) (fun s hs => recallMove_law hs ?_
      fun n x k q s hs => ownershipLaw_recallResolved _ _ _ _ _ _ _ hs) hs e
    rw [resolve_keeps (g := ownershipLaw) (fun _ _ => rfl)]
    exact hs
  case powerOn | lowSupply | resetPin | restart => 
    exact c.exec_reset (fun _ _ _ h => h) (fun _ _ _ => ownershipLaw_takeReset _ _) rfl hs e
  all_goals
    refine ownershipLaw_of_shrunk hs (exec_shrunk rfl e) fun a => ?_
    unfold ownerOf
    rw [hsteady.exec_disjoint free rfl rfl rfl e]

/-- Settles O59: requests of the authority table write lawful records and withdraw the axes whose owner they change;
RECALL appends a move on axes its master owns, under an id no move holds; and no other command adds a move. -/
theorem stepsKeepAuthorityAndQueue : Obligations.StepsKeepAuthorityAndQueue := by
  intro s t hauthority hqueue hown e
  exact ⟨step_keeps authorityLaw_calm.time (fun _ _ h => h) authorityLaw_exec hauthority e,
    step_keeps queueLaw_calm.time (fun _ _ h => h) queueLaw_exec hqueue e,
    step_keeps ownershipLaw_calm.time (fun _ _ h => h) ownershipLaw_exec hown e⟩

end Sys2Proof.Machine
end

section
/-! PROOFS. The field arithmetic of the timecode counter (O42): each field carries or borrows as a two-digit number
does, so the fields together count positions in the day. -/

namespace Sys2Proof.Machine

/-! ## One field -/

@[simp] theorem bcdValid_eq_true {n : Nat} {b : Bcd} :
    bcdValid n b = true ↔ b.tens ≤ 9 ∧ b.ones ≤ 9 ∧ bcdValue b < n := by
  simp [bcdValid, and_assoc]

theorem bcdValue_bcdOf (v : Nat) : bcdValue (bcdOf v) = v := by
  simp only [bcdValue, bcdOf]
  omega

theorem bcdValid_bcdOf {n v : Nat} (hn : n ≤ 100) (h : v < n) : bcdValid n (bcdOf v) = true := by
  rw [bcdValid_eq_true, bcdValue_bcdOf]
  simp only [bcdOf]
  omega

/-- A field of the advance takes the carry, and gives back what reaches its modulus. -/
theorem advanceField_spec {n : Nat} {b : Bcd} (c : Bool) (hpos : 0 < n) (hn : n ≤ 100)
    (h : bcdValid n b = true) :
    bcdValid n (advanceField n c b).field = true ∧
      bcdValue (advanceField n c b).field + n * (advanceField n c b).out.toNat = bcdValue b + c.toNat := by
  cases c with
  | false => exact ⟨h, rfl⟩
  | true =>
    rw [bcdValid_eq_true] at h
    obtain ⟨htens, hones, hlt⟩ := h
    simp only [bcdValue] at hlt
    simp only [advanceField, bumpField, if_true, bcdValid_eq_true, bcdValue]
    repeat' split
    all_goals simp only [Bool.toNat_false, Bool.toNat_true] at *
    all_goals omega

theorem addField_spec {n : Nat} {a b : Bcd} (c : Bool) (hn : n ≤ 100) (ha : bcdValid n a = true)
    (hb : bcdValid n b = true) :
    bcdValid n (addField n c a b).field = true ∧
      bcdValue (addField n c a b).field + n * (addField n c a b).out.toNat =
        bcdValue a + bcdValue b + c.toNat := by
  have hc := c.toNat_le
  rw [bcdValid_eq_true] at ha hb
  obtain ⟨_, _, ha⟩ := ha
  obtain ⟨_, _, hb⟩ := hb
  have hsum : 10 * (a.tens + b.tens + digitCarry (a.ones + b.ones + c.toNat)) +
      (a.ones + b.ones + c.toNat - 10 * digitCarry (a.ones + b.ones + c.toNat)) =
        bcdValue a + bcdValue b + c.toNat := by
    simp only [bcdValue, digitCarry]
    split <;> omega
  simp only [addField, hsum]
  split
  · exact ⟨bcdValid_bcdOf hn ‹_›, by rw [bcdValue_bcdOf]; simp⟩
  · exact ⟨bcdValid_bcdOf hn (by omega), by rw [bcdValue_bcdOf]; simp only [Bool.toNat_true]; omega⟩

theorem subtractField_spec {n : Nat} {a b : Bcd} (c : Bool) (hn : n ≤ 100) (ha : bcdValid n a = true)
    (hb : bcdValid n b = true) :
    bcdValid n (subtractField n c a b).field = true ∧
      bcdValue (subtractField n c a b).field + bcdValue b + c.toNat =
        bcdValue a + n * (subtractField n c a b).out.toNat := by
  have hc := c.toNat_le
  rw [bcdValid_eq_true] at ha hb
  obtain ⟨_, _, ha⟩ := ha
  obtain ⟨_, _, hb⟩ := hb
  have hdiff : 10 * ((a.tens : Int) - b.tens - digitBorrow ((a.ones : Int) - b.ones - c.toNat)) +
      ((a.ones : Int) - b.ones - c.toNat + 10 * digitBorrow ((a.ones : Int) - b.ones - c.toNat)) =
        (bcdValue a : Int) - bcdValue b - c.toNat := by
    simp only [bcdValue]
    omega
  simp only [subtractField, hdiff]
  split
  · refine ⟨bcdValid_bcdOf hn (by omega), ?_⟩
    rw [bcdValue_bcdOf]
    simp only [Bool.toNat_true]
    omega
  · refine ⟨bcdValid_bcdOf hn (by omega), ?_⟩
    rw [bcdValue_bcdOf]
    simp only [Bool.toNat_false]
    omega

/-! ## Four fields -/

theorem timecodeValid_iff {r : Rate} {t : Timecode} : timecodeValid r t = true ↔
    bcdValid 24 t.hh = true ∧ bcdValid 60 t.mm = true ∧ bcdValid 60 t.ss = true ∧
      bcdValid (framesPerSecond r) t.ff = true := by
  simp only [timecodeValid, Bool.and_eq_true, and_assoc]

theorem framesPerSecond_pos (r : Rate) : 0 < framesPerSecond r := by cases r <;> decide

theorem framesPerSecond_le (r : Rate) : framesPerSecond r ≤ 100 := by cases r <;> decide

theorem positionInDay_lt {r : Rate} {t : Timecode} (h : timecodeValid r t = true) :
    positionInDay r t < 86400 * framesPerSecond r := by
  rw [timecodeValid_iff] at h
  simp only [bcdValid_eq_true] at h
  unfold positionInDay
  cases r <;> simp only [framesPerSecond] at h ⊢ <;> omega

theorem advanceCounter_spec {r : Rate} {t : Timecode} (h : timecodeValid r t = true) :
    timecodeValid r (advanceCounter r t) = true ∧
      positionInDay r (advanceCounter r t) = (positionInDay r t + 1) % (86400 * framesPerSecond r) := by
  have hlt := positionInDay_lt h
  rw [timecodeValid_iff] at h
  obtain ⟨hh, hm, hs, hf⟩ := h
  obtain ⟨vf, ef⟩ := advanceField_spec true (framesPerSecond_pos r) (framesPerSecond_le r) hf
  obtain ⟨vs, es⟩ := advanceField_spec (advanceField (framesPerSecond r) true t.ff).out (by decide) (by decide) hs
  obtain ⟨vm, em⟩ := advanceField_spec (advanceField 60 (advanceField (framesPerSecond r) true t.ff).out t.ss).out
    (by decide) (by decide) hm
  obtain ⟨vh, eh⟩ := advanceField_spec (advanceField 60 (advanceField 60
    (advanceField (framesPerSecond r) true t.ff).out t.ss).out t.mm).out (by decide) (by decide) hh
  refine ⟨timecodeValid_iff.2 ⟨vh, vm, vs, vf⟩, ?_⟩
  have hlt' := positionInDay_lt (timecodeValid_iff.2 ⟨vh, vm, vs, vf⟩ : timecodeValid r (advanceCounter r t) = true)
  simp only [positionInDay, advanceCounter, eachField, Bool.toNat_true] at *
  cases r <;> simp only [framesPerSecond] at * <;> omega

theorem addTimecode_spec {r : Rate} {t v : Timecode} (ht : timecodeValid r t = true) (hv : timecodeValid r v = true) :
    timecodeValid r (addTimecode r t v) = true ∧ positionInDay r (addTimecode r t v) =
      (positionInDay r t + positionInDay r v) % (86400 * framesPerSecond r) := by
  rw [timecodeValid_iff] at ht hv
  obtain ⟨hh, hm, hs, hf⟩ := ht
  obtain ⟨hh', hm', hs', hf'⟩ := hv
  simp only [addTimecode, eachField]
  have hff := addField_spec false (framesPerSecond_le r) hf hf'
  generalize addField (framesPerSecond r) false t.ff v.ff = ff at hff ⊢
  have hss := addField_spec ff.out (by decide) hs hs'
  generalize addField 60 ff.out t.ss v.ss = ss at hss ⊢
  have hmm := addField_spec ss.out (by decide) hm hm'
  generalize addField 60 ss.out t.mm v.mm = mm at hmm ⊢
  have hhh := addField_spec mm.out (by decide) hh hh'
  generalize addField 24 mm.out t.hh v.hh = hours at hhh ⊢
  obtain ⟨vf, ef⟩ := hff
  obtain ⟨vs, es⟩ := hss
  obtain ⟨vm, em⟩ := hmm
  obtain ⟨vh, eh⟩ := hhh
  generalize hres : ({ hh := hours.field, mm := mm.field, ss := ss.field, ff := ff.field } : Timecode) = res
  have hvalid : timecodeValid r res = true := hres ▸ timecodeValid_iff.2 ⟨vh, vm, vs, vf⟩
  have hlt := positionInDay_lt hvalid
  have hsum : positionInDay r t + positionInDay r v =
      positionInDay r res + 86400 * framesPerSecond r * hours.out.toNat := by
    simp only [← hres, positionInDay, Bool.toNat_false] at ef ⊢
    cases r <;> simp only [framesPerSecond] at * <;> omega
  exact ⟨hvalid, by rw [hsum, Nat.add_mul_mod_self_left, Nat.mod_eq_of_lt hlt]⟩

theorem subtractTimecode_spec {r : Rate} {t v : Timecode} (ht : timecodeValid r t = true)
    (hv : timecodeValid r v = true) :
    timecodeValid r (subtractTimecode r t v) = true ∧ positionInDay r (subtractTimecode r t v) =
      (positionInDay r t + 86400 * framesPerSecond r - positionInDay r v) % (86400 * framesPerSecond r) := by
  have hless := positionInDay_lt hv
  rw [timecodeValid_iff] at ht hv
  obtain ⟨hh, hm, hs, hf⟩ := ht
  obtain ⟨hh', hm', hs', hf'⟩ := hv
  simp only [subtractTimecode, eachField]
  have hff := subtractField_spec false (framesPerSecond_le r) hf hf'
  generalize subtractField (framesPerSecond r) false t.ff v.ff = ff at hff ⊢
  have hss := subtractField_spec ff.out (by decide) hs hs'
  generalize subtractField 60 ff.out t.ss v.ss = ss at hss ⊢
  have hmm := subtractField_spec ss.out (by decide) hm hm'
  generalize subtractField 60 ss.out t.mm v.mm = mm at hmm ⊢
  have hhh := subtractField_spec mm.out (by decide) hh hh'
  generalize subtractField 24 mm.out t.hh v.hh = hours at hhh ⊢
  obtain ⟨vf, ef⟩ := hff
  obtain ⟨vs, es⟩ := hss
  obtain ⟨vm, em⟩ := hmm
  obtain ⟨vh, eh⟩ := hhh
  generalize hres : ({ hh := hours.field, mm := mm.field, ss := ss.field, ff := ff.field } : Timecode) = res
  have hvalid : timecodeValid r res = true := hres ▸ timecodeValid_iff.2 ⟨vh, vm, vs, vf⟩
  have hlt := positionInDay_lt hvalid
  have hsum : positionInDay r res + positionInDay r v =
      positionInDay r t + 86400 * framesPerSecond r * hours.out.toNat := by
    simp only [← hres, positionInDay, Bool.toNat_false] at ef ⊢
    cases r <;> simp only [framesPerSecond] at * <;> omega
  have hmod : positionInDay r t + 86400 * framesPerSecond r - positionInDay r v =
      positionInDay r res + 86400 * framesPerSecond r * (1 - hours.out.toNat) := by
    cases ho : hours.out <;> simp only [ho, Bool.toNat_false, Bool.toNat_true] at hsum ⊢ <;> omega
  exact ⟨hvalid, by rw [hmod, Nat.add_mul_mod_self_left, Nat.mod_eq_of_lt hlt]⟩

/-- Settles O42: the fields carry and borrow as the digits of the position in day do. -/
theorem counterArithmeticFollowsThePosition : Obligations.CounterArithmeticFollowsThePosition := by
  have hrate : ∀ r, perSecond r = framesPerSecond r := fun r => by cases r <;> rfl
  refine ⟨fun r t => ⟨?_, ?_⟩, fun r t v ht hv => ?_⟩
  · rw [timecodeValid_iff, hrate]
    simp only [bcdValid_eq_true]
    rfl
  · rw [hrate]
    rfl
  · rw [hrate]
    exact ⟨positionInDay_lt ht, advanceCounter_spec ht, addTimecode_spec ht hv, subtractTimecode_spec ht hv⟩

end Sys2Proof.Machine
end

section
/-! PROOFS. The laws of the timecode counter, the bus and the stale state through every step (O60). -/

namespace Sys2Proof.Machine

/-! ## Settings that none of the three laws looks at -/

/-- The settings that the laws of the timecode, the bus and the stale state look at. -/
def rulingSettings (x : Settings) : Rate × AxisSet × Vector Slot 16 × PerMaster (Option Nat) :=
  (x.rate, x.fitted, x.slots, x.staleLimits)

/-- A law that looks at no other settings, and at none of what a request writes beside them. -/
structure SettingsLaw (P : State → Prop) : Prop where
  settings : ∀ s x, rulingSettings x = rulingSettings s.settings → P s → P { s with settings := x }
  armed : ∀ s x, P s → P { s with armed := x }
  blend : ∀ s x, P s → P { s with blend := x }
  drives : ∀ s x, P s → P { s with bus := { s.bus with drives := x } }
  escalation : ∀ s x, P s → P { s with faults := { s.faults with escalation := x } }

section SettingsLaw
variable {P : State → Prop}

theorem SettingsLaw.setProfile (sl : SettingsLaw P) (r : Master) (m a d e g i : Nat) (s : State) (h : P s) :
    P (setProfile r m a d e g i s).state := by
  unfold Machine.setProfile
  split
  · exact h
  · split
    · exact h
    · split
      · exact sl.settings _ _ rfl h
      · exact h

theorem SettingsLaw.setView (sl : SettingsLaw P) (r : Master) (v e d l k : Nat) (s : State) (h : P s) :
    P (setView r v e d l k s).state := by
  unfold Machine.setView
  split
  · split
    · split
      · unfold unlessSaving
        split
        · exact h
        · exact sl.settings _ _ rfl h
      · exact h
    · exact h
  · exact h

theorem SettingsLaw.setFaultTimers (sl : SettingsLaw P) (d n : Nat) (s : State) (h : P s) :
    P (setFaultTimers d n s).state := by
  unfold Machine.setFaultTimers
  split
  · exact sl.settings _ _ rfl h
  · exact h

theorem SettingsLaw.rezone (sl : SettingsLaw P) (n : Fin 8) (z : ZoneSetting) (s : State) (h : P s) :
    P (rezone n z s) := by
  have hzones := sl.settings s { s.settings with zones := s.settings.zones.set n z } rfl h
  exact sl.armed _ _ hzones

theorem SettingsLaw.relimit (sl : SettingsLaw P) (a : Axis) (l : Limits) (s : State) (h : P s) :
    P (relimit a l s) := by
  have hlimits := sl.settings s { s.settings with limits := s.settings.limits.set a l } rfl h
  exact sl.drives _ _ (sl.blend _ _ hlimits)

theorem SettingsLaw.setZone (sl : SettingsLaw P) (z e : Nat) (x : AxisSet) (b : List (Int × Int)) (s : State)
    (h : P s) : P (setZone z e x b s).state := by
  unfold Machine.setZone
  split
  · exact h
  · split
    · split
      · exact sl.rezone _ _ s h
      · exact h
    · exact h

theorem SettingsLaw.setLimits (sl : SettingsLaw P) (a : Nat) (l : Limits) (s : State) (h : P s) :
    P (setLimits a l s).state := by
  unfold Machine.setLimits
  split
  · exact h
  · split
    · exact h
    · split
      · split
        · exact h
        · exact sl.relimit _ _ s h
      · exact h

theorem SettingsLaw.setFaultActions (sl : SettingsLaw P) (a b : Nat) (s : State) (h : P s) :
    P (setFaultActions a b s).state := by
  unfold Machine.setFaultActions
  split
  · split
    · exact h
    · exact judgeEscalation_law sl.escalation _ (sl.settings _ _ rfl h)
  · exact h

/-- The commands that write other settings. -/
def writesOtherSettings : Instr → Bool
  | .setProfile .. | .setView .. | .setFaultTimers .. | .setZone .. | .setLimits .. | .setFaultActions .. => true
  | _ => false

theorem SettingsLaw.exec (sl : SettingsLaw P) (c : Calm P) {i : Instr} (hi : writesOtherSettings i = true)
    {s t : State} (hs : P s) (e : exec i s = .next t) : P t := by
  cases i <;> simp only [writesOtherSettings, Bool.false_eq_true] at hi
  case setProfile h m a d e' g n => exact c.request (sl.setProfile h.link m a d e' g n) hs e
  case setView h v e' d l k => exact c.request (sl.setView h.link v e' d l k) hs e
  case setFaultTimers h d n => exact c.request (privileged_law (sl.setFaultTimers d n)) hs e
  case setZone h z n x b => exact c.request (privileged_law (sl.setZone z n x b)) hs e
  case setLimits h a lo hi v ac r f n => exact c.request (privileged_law (sl.setLimits a _)) hs e
  case setFaultActions h a b => exact c.request (privileged_law (sl.setFaultActions a b)) hs e

end SettingsLaw

/-- SET FITTED AXES writes while the bus is not RUNNING. -/
theorem setFitted_law {P : State → Prop}
    (hset : ∀ s x, s.bus.state ≠ .running → P s → P (refit x s)) (x : AxisSet) (s : State) (h : P s) :
    P (setFitted x s).state := by
  unfold setFitted
  split
  · exact h
  · split
    · exact h
    · exact hset _ _ ‹_› h

/-- SET BUS CONFIG writes while the bus is not RUNNING. -/
theorem setBusConfig_law {P : State → Prop}
    (hset : ∀ s (r : BusRole) (n : Nat) (m : Vector Slot 16), s.bus.state ≠ .running → P s →
      P { s with settings := { s.settings with role := r, period := n, slots := m } })
    (r n : Nat) (l : List Nat) (s : State) (h : P s) : P (setBusConfig r n l s).state := by
  unfold setBusConfig
  split
  · split
    · split
      · exact h
      · exact hset _ _ _ _ ‹_› h
    · exact h
  · exact h

theorem privileged_at {P : State → Prop} {h : Header} {body : State → Response} {s : State} (hs : P s)
    (hb : P (body s).state) : P (privileged h body s).state := by
  unfold privileged
  split
  · exact hb
  · exact hs

/-! ## Start-up short of READY -/

/-- The end of the hold changes nothing or leads from one phase before READY to another. -/
theorem holdEnd_cases (pin : OperatingMode) (s : State) : holdEnd pin s = s ∨
    s.startup.phase ≠ .ready ∧ ∃ u, u.phase ≠ .ready ∧ holdEnd pin s = { s with startup := u } := by
  unfold holdEnd
  split
  · rename_i hp
    exact .inr ⟨by rw [hp]; decide, _, (by decide : Phase.loading ≠ .ready), rfl⟩
  · exact .inl rfl

/-- The release of RESET writes its level, and leads at most from one phase before READY to another. -/
theorem resetRelease_cases (s : State) : ∃ u, resetRelease s = { s with startup := u } ∧
    (u.phase = s.startup.phase ∨ s.startup.phase ≠ .ready ∧ u.phase ≠ .ready) := by
  unfold resetRelease
  simp only
  split
  · rename_i hp
    obtain ⟨hreset, _⟩ := hp
    have hreset : s.startup.phase = .inReset := hreset
    refine ⟨{ (setLevels false s.startup.supplyLow s).startup with phase := .hold }, rfl, .inr ⟨?_, ?_⟩⟩
    · rw [hreset]
      decide
    · exact (by decide : Phase.hold ≠ .ready)
  · exact ⟨_, rfl, .inl rfl⟩

theorem configurationLoad_idle {s : State} (a : MemoryAnswer) (h : s.startup.phase ≠ .loading) :
    configurationLoad a s = quiet s := by
  unfold configurationLoad
  exact if_neg h

/-! ## The timecode counter -/

/-- The fields that the law of the counter looks at. -/
def readsCounter : Field → Bool
  | .startup | .settings | .ports | .timecode => true
  | _ => false

theorem timecodeLaw_calm : Calm timecodeLaw where
  time dt s h := by
    unfold timecodeLaw
    rw [elapse_settings, elapse_counter, elapse_startup, elapse_ports]
    exact h
  port s m p hp h := by
    obtain ⟨hvalid, hrest⟩ := h
    refine ⟨hvalid, fun hr => ⟨(hrest hr).1, fun k => ?_⟩⟩
    rw [State.setPort_ports, PerMaster.get_set]
    split
    · rw [hp]
      exact (hrest hr).2 m
    · exact (hrest hr).2 k

theorem timecodeLaw_offFaults : OffFaults timecodeLaw :=
  ⟨⟨fun _ _ => rfl⟩, fun _ _ => rfl, fun _ _ => rfl, fun _ _ => rfl⟩

theorem timecodeLaw_raise (src : FaultSource) (info : RaiseInfo) (s : State) (h : timecodeLaw s) :
    timecodeLaw (raise src info s).state := by
  rw [raise_keeps timecodeLaw_offFaults]
  exact h

theorem timecodeLaw_frames : FrameLaw timecodeLaw where
  raise := timecodeLaw_raise
  released s h := by rw [enterReleased_keeps timecodeLaw_offFaults]; exact h
  queue _ _ _ h := h
  plain _ _ _ _ _ h := h
  report m s h := by
    unfold countReport
    simp only
    split
    · exact h
    · split <;> exact timecodeLaw_calm.port _ _ _ rfl h
  drives _ _ _ h := h
  counts _ _ _ _ h := h

theorem timecodeLaw_settings : SettingsLaw timecodeLaw where
  settings s x hx h := by
    have hr : x.rate = s.settings.rate := congrArg Prod.fst hx
    unfold timecodeLaw
    rw [hr]
    exact h
  armed _ _ h := h
  blend _ _ h := h
  drives _ _ h := h
  escalation _ _ h := h

/-- A port is OPEN from READY on alone. -/
theorem ready_of_opened {s : State} {m : Master} (h : timecodeLaw s) (ho : (s.ports.get m).link = .opened) :
    s.startup.phase = .ready := by
  refine Classical.byContradiction fun hr => ?_
  rw [(h.2 hr).2 m] at ho
  cases ho

/-- From READY on a valid counter is all that the law asks. -/
theorem timecodeLaw_of_ready {s : State} (hr : s.startup.phase = .ready)
    (hv : timecodeValid s.settings.rate s.timecode.counter = true) : timecodeLaw s := ⟨hv, fun h => absurd hr h⟩

theorem timecodeValid_zero (r : Rate) : timecodeValid r zeroTimecode = true := by cases r <;> rfl

theorem timecodeLaw_writeCounter {v : Timecode} {s : State} (hr : s.startup.phase = .ready)
    (hv : timecodeValid s.settings.rate v = true) : timecodeLaw (writeCounter v s).state := by
  unfold writeCounter
  rw [missCues_keeps timecodeLaw_offFaults.toOffQueue]
  exact timecodeLaw_of_ready hr hv

theorem timecodeLaw_setTimecode (v : Timecode) (s : State) (hr : s.startup.phase = .ready) (h : timecodeLaw s) :
    timecodeLaw (setTimecode v s).state := by
  unfold setTimecode
  split
  · exact timecodeLaw_writeCounter hr ‹_›
  · exact h

theorem timecodeLaw_offsetTimecode (n : Nat) (v : Timecode) (s : State) (hr : s.startup.phase = .ready)
    (h : timecodeLaw s) : timecodeLaw (offsetTimecode n v s).state := by
  unfold offsetTimecode
  split
  · exact h
  · rename_i res hres
    split
    · rename_i hv
      refine timecodeLaw_writeCounter hr ?_
      unfold offsetResult at hres
      split at hres
      · rw [← Option.some.inj hres]
        exact (addTimecode_spec h.1 hv).1
      · rw [← Option.some.inj hres]
        exact (subtractTimecode_spec h.1 hv).1
      · cases hres
    · exact h

theorem timecodeLaw_setRate (n : Nat) (s : State) (hr : s.startup.phase = .ready) (h : timecodeLaw s) :
    timecodeLaw (setRate n s).state := by
  unfold setRate
  split
  · exact h
  · rename_i r _
    split
    · exact h
    · split
      · exact h
      · show timecodeLaw (newRate r s).state
        unfold newRate
        simp only
        rw [missCues_keeps timecodeLaw_offFaults.toOffQueue]
        obtain ⟨hh, hm, hs, _⟩ := timecodeValid_iff.1 h.1
        have hpos := framesPerSecond_pos r
        exact timecodeLaw_of_ready hr (timecodeValid_iff.2
          ⟨hh, hm, hs, bcdValid_bcdOf (framesPerSecond_le r)
            (Nat.lt_of_le_of_lt (Nat.min_le_right _ _) (Nat.sub_lt hpos Nat.one_pos))⟩)

theorem timecodeLaw_judgePeriod (good : Bool) (s : State) (hr : s.startup.phase = .ready) (h : timecodeLaw s) :
    timecodeLaw (judgePeriod good s).state := by
  have hlock : ∀ l n s, timecodeLaw s → timecodeLaw (setLock l n s) := fun l n s h => h
  unfold judgePeriod
  split
  · exact hlock _ _ _ h
  · exact hlock _ _ _ h
  · exact hlock _ _ _ h
  · show timecodeLaw (countGood s)
    unfold countGood
    split <;> exact hlock _ _ _ h
  · show timecodeLaw (lockedPulse s)
    unfold lockedPulse
    split
    · unfold advanceTimecode
      rw [cueMatch_keeps timecodeLaw_offFaults.toOffQueue]
      exact timecodeLaw_of_ready hr (advanceCounter_spec h.1).1
    · exact hlock _ _ _ h
  · exact timecodeLaw_raise _ _ _ (hlock _ _ _ h)

theorem timecodeLaw_genlockPulse (s : State) (h : timecodeLaw s) : timecodeLaw (genlockPulse s).state := by
  unfold genlockPulse whenever
  split
  · rename_i hr
    exact timecodeLaw_judgePeriod _ (capturePeriod s) (by simpa [ready] using hr) h
  · exact h

theorem timecodeLaw_genlockLoss (s : State) (h : timecodeLaw s) : timecodeLaw (genlockLoss s).state := by
  unfold genlockLoss
  split
  · exact h
  · split
    · exact timecodeLaw_raise _ _ _ h
    · exact h
    · exact h
    · exact h

theorem timecodeLaw_frameReceived (m : Master) (l : List Octet) (s : State) (h : timecodeLaw s) :
    timecodeLaw (frameReceived m l s).state := by
  have hbad : ∀ n, timecodeLaw (setBadRun m n s) := fun n => timecodeLaw_calm.port s m _ rfl h
  unfold frameReceived
  split
  · exact h
  · exact h
  · unfold judgeFrame
    split
    · exact whenever_keeps (P := timecodeLaw) (timecodeLaw_raise _ _) _ (hbad _)
    · exact hbad 0
    · exact timecodeLaw_calm.receiveRequest _ _ h

theorem timecodeLaw_setStaleLimit (r : Master) (m l : Nat) (s : State) (h : timecodeLaw s) :
    timecodeLaw (setStaleLimit r m l s).state := by
  unfold setStaleLimit
  split
  · exact h
  · split
    · split
      · exact h
      · rw [acceptWith_state, rejudgeStale_keeps timecodeLaw_offFaults fun _ _ => rfl]
        exact h
    · exact h

theorem timecodeLaw_takeReset (c : ResetCause) (s : State) : timecodeLaw (takeReset c s) :=
  ⟨rfl, fun _ => ⟨rfl, fun m => by cases m <;> rfl⟩⟩

/-- A load at rest leaves a zero counter, valid at the rate loaded. -/
theorem timecodeLaw_loaded {s : State} (h : s.timecode.counter = zeroTimecode) :
    timecodeLaw (openPorts (setPhase .ready (s.setCache []))) :=
  timecodeLaw_of_ready rfl (by
    show timecodeValid _ s.timecode.counter = true
    rw [h]
    exact timecodeValid_zero _)

theorem timecodeLaw_configurationLoad (a : MemoryAnswer) (s : State) (h : timecodeLaw s) :
    timecodeLaw (configurationLoad a s).state := by
  by_cases hp : s.startup.phase = .loading
  · have hzero : s.timecode.counter = zeroTimecode := (h.2 (by rw [hp]; exact nofun)).1
    refine configurationLoad_law (timecodeLaw_raise _ _)
      (fun b s h => by rw [raiseActions_keeps timecodeLaw_offFaults]; exact h) h (timecodeLaw_loaded hzero)
      (fun i m _ => timecodeLaw_loaded hzero) fun i m => timecodeLaw_loaded ?_
    rw [raiseRecord_keeps (g := fun s => s.timecode.counter)
      ⟨⟨fun _ _ => rfl⟩, fun _ _ => rfl, fun _ _ => rfl, fun _ _ => rfl⟩]
    exact hzero
  · rw [configurationLoad_idle a hp]
    exact h

/-- Every command keeps the law of the counter. -/
theorem timecodeLaw_exec (i : Instr) (s t : State) (hs : timecodeLaw s) (e : exec i s = .next t) :
    timecodeLaw t := by
  have c := timecodeLaw_calm
  have sync : SyncLaw timecodeLaw := ⟨fun _ _ h => h, fun _ _ _ _ _ h => h⟩
  have free : ∀ f, readsCounter f = false → f.FreeIn timecodeLaw := fun f hf => by
    cases f <;> first | exact fun _ _ => rfl | cases hf
  cases i
  case setProfile | setView | setFaultTimers | setZone | setLimits | setFaultActions =>
    exact timecodeLaw_settings.exec c rfl hs e
  case setTimecode h v =>
    exact c.request_opened (fun s ho hs => privileged_at hs (timecodeLaw_setTimecode v s (ready_of_opened hs ho) hs))
      hs e
  case offsetTimecode h n v =>
    exact c.request_opened
      (fun s ho hs => privileged_at hs (timecodeLaw_offsetTimecode n v s (ready_of_opened hs ho) hs)) hs e
  case setRate h n =>
    exact c.request_opened (fun s ho hs => privileged_at hs (timecodeLaw_setRate n s (ready_of_opened hs ho) hs)) hs e
  case tcRun h => exact c.request (privileged_law fun _ h => h) hs e
  case tcStop h => exact c.request (privileged_law fun _ h => h) hs e
  case setFitted h x => exact c.request (privileged_law (setFitted_law (fun _ _ _ h => h) x)) hs e
  case setBusConfig h r p sl => exact c.request (privileged_law (setBusConfig_law (fun _ _ _ _ _ h => h) r p sl)) hs e
  case setStaleLimit h m l => exact c.request (timecodeLaw_setStaleLimit h.link m l) hs e
  case status h => exact c.request (body := status h.link) (fun s hs => c.port _ _ _ rfl hs) hs e
  case setReport h n =>
    refine c.request (body := setReport h.link n) (fun s hs => ?_) hs e
    unfold setReport
    split
    · exact hs
    · exact c.port _ _ _ rfl hs
  case joy dt m d =>
    refine c.event (f := fun s => quiet (receiveJoy m d s)) (fun s hs => ?_) hs e
    show timecodeLaw (receiveJoy m d s)
    unfold receiveJoy
    split
    · exact hs
    · exact c.port s m _ rfl hs
  case frameReceived dt m l => exact c.event (timecodeLaw_frameReceived m l) hs e
  case frameLeavesQueue dt m =>
    refine c.event (f := fun s => quiet (frameLeaves m s)) (fun s hs => c.port s m _ ?_ hs) hs e
    unfold Port.send
    split <;> rfl
  case powerUpHoldEnd dt p =>
    refine c.event (f := fun s => quiet (holdEnd p s)) (fun s hs => ?_) hs e
    rcases holdEnd_cases p s with h | ⟨hp, u, _, h⟩ <;> simp only [quiet, h]
    · exact hs
    · exact ⟨hs.1, fun _ => hs.2 hp⟩
  case resetRelease dt =>
    refine c.event (f := fun s => quiet (resetRelease s)) (fun s hs => ?_) hs e
    obtain ⟨u, h, hp⟩ := resetRelease_cases s
    simp only [quiet, h]
    exact ⟨hs.1, fun hu => hs.2 (hp.elim (fun hp => hp ▸ hu) And.left)⟩
  case configurationLoad dt a => exact c.event (timecodeLaw_configurationLoad a) hs e
  case genlockPulse => exact c.event timecodeLaw_genlockPulse hs e
  case genlockLossEvent => exact c.event timecodeLaw_genlockLoss hs e
  case frameStart dt w => exact EventLaw.exec_frame c timecodeLaw_frames sync hs (.inl e)
  case busSyncEdge dt w => exact EventLaw.exec_frame c timecodeLaw_frames sync hs (.inr (.inl e))
  case powerOn | lowSupply | resetPin | restart =>
    exact c.exec_reset (fun _ _ _ h => h) (fun _ _ _ => timecodeLaw_takeReset _ _) rfl hs e
  all_goals exact c.exec_disjoint free rfl rfl hs e

/-! ## The bus (R130, R131) -/

/-- The fields that the law of the bus looks at. -/
def readsBusState : Field → Bool
  | .startup | .settings | .bus => true
  | _ => false

theorem busLaw_eventLaw : EventLaw busLaw where
  queue _ _ _ h := h
  blend _ _ h := h
  releaseDrives _ h := h
  stopping _ _ h := h
  released _ h := h
  cause _ _ h := h
  escalation _ _ h := h
  record src info s h := by
    unfold raiseRecord
    split <;> exact h
  time dt s h := by
    unfold busLaw slotsServe slotCount
    rw [elapse_busState, elapse_settings, elapse_startup]
    exact h
  port _ _ _ _ h := h
  joysticks _ _ h := h
  timecode _ _ h := h
  staleLimits _ _ h := h
  estop _ h := h

theorem busLaw_frames : FrameLaw busLaw where
  raise := busLaw_eventLaw.raise
  released _ h := h
  queue _ _ _ h := h
  plain _ _ _ _ _ h := h
  report m s h := by
    unfold countReport
    simp only
    split
    · exact h
    · split <;> exact h
  drives _ _ _ h := h
  counts _ _ _ _ h := h

theorem busLaw_settings : SettingsLaw busLaw where
  settings s x hx h := by
    simp only [rulingSettings, Prod.mk.injEq] at hx
    obtain ⟨_, hfitted, hslots, _⟩ := hx
    unfold busLaw slotsServe slotCount
    rw [hfitted, hslots]
    exact h
  armed _ _ h := h
  blend _ _ h := h
  drives _ _ h := h
  escalation _ _ h := h

theorem busLaw_of_stopped {s : State} (h : s.bus.state = .stopped) : busLaw s :=
  ⟨fun hr => absurd (h.symm.trans hr) (by decide), fun _ => h⟩

theorem busLaw_busStart (s : State) (hr : s.startup.phase = .ready) (h : busLaw s) : busLaw (busStart s).state := by
  unfold busStart
  split
  · exact h
  · split
    · rename_i hserve
      rw [List.all_eq_true] at hserve
      exact ⟨fun _ a => hserve a (Axis.mem_all a), fun hn => absurd hr hn⟩
    · exact h

theorem busLaw_busStop (s : State) (h : busLaw s) : busLaw (busStop s).state := by
  unfold busStop
  split
  · exact h
  · split
    · exact h
    · split
      · exact busLaw_of_stopped rfl
      · exact h

theorem RunState.eq_stopped {b : RunState} (h : b ≠ .running) : b = .stopped := by
  cases b with
  | stopped => rfl
  | running => exact absurd rfl h

theorem busLaw_setRate (n : Nat) (s : State) (h : busLaw s) : busLaw (setRate n s).state := by
  unfold setRate
  split
  · exact h
  · split
    · exact h
    · split
      · exact h
      · exact h

theorem busLaw_configurationLoad (a : MemoryAnswer) (s : State) (h : busLaw s) :
    busLaw (configurationLoad a s).state := by
  by_cases hp : s.startup.phase = .loading
  · have hstopped : s.bus.state = .stopped := h.2 (by rw [hp]; exact nofun)
    exact configurationLoad_law (busLaw_eventLaw.raise _ _) (fun b s h => busLaw_eventLaw.raiseActions _ _ b s h) h
      (busLaw_of_stopped hstopped) (fun i m _ => busLaw_of_stopped hstopped) fun i m => busLaw_of_stopped (by
        show (raiseRecord _ _ _).bus.state = .stopped
        rw [raiseRecord_bus]
        exact hstopped)
  · rw [configurationLoad_idle a hp]
    exact h

/-- Every command keeps the law of the bus, where the ports are CLOSED before READY. -/
theorem busLaw_exec (i : Instr) (s t : State) (htc : timecodeLaw s) (hs : busLaw s) (e : exec i s = .next t) :
    busLaw t := by
  have el := busLaw_eventLaw
  have c : Calm busLaw := el.toCalm
  have sync : SyncLaw busLaw := ⟨fun _ _ h => h, fun _ _ _ _ _ h => h⟩
  have free : ∀ f, readsBusState f = false → f.FreeIn busLaw := fun f hf => by
    cases f <;> first | exact fun _ _ => rfl | cases hf
  cases i
  case setStaleLimit | frameReceived | estop | genlockPulse | genlockLossEvent | staleEntry | escalationExpiry |
      stopTimerExpiry => exact el.exec rfl hs e
  case setProfile | setView | setFaultTimers | setZone | setLimits | setFaultActions =>
    exact busLaw_settings.exec c rfl hs e
  case enable h x =>
    refine c.request (body := enable h.link x) (fun s hs => ?_) hs e
    unfold enable
    split <;> exact hs
  case disable h x =>
    refine c.request (body := disable h.link x) (fun s hs => ?_) hs e
    unfold disable
    split <;> exact hs
  case busStart h =>
    have both : Calm fun s => timecodeLaw s ∧ busLaw s :=
      ⟨fun dt s h => ⟨timecodeLaw_calm.time dt s h.1, c.time dt s h.2⟩,
        fun s m p hp h => ⟨timecodeLaw_calm.port s m p hp h.1, h.2⟩⟩
    refine (both.request_opened (fun s ho hs => ⟨?_, ?_⟩) ⟨htc, hs⟩ e).2
    · rw [privileged_keeps (g := timecodeLaw) (busStart_keeps fun _ _ => rfl)]
      exact hs.1
    · exact privileged_at hs.2 (busLaw_busStart s (ready_of_opened hs.1 ho) hs.2)
  case busStop h => exact c.request (privileged_law busLaw_busStop) hs e
  case releaseClear =>
    refine c.request (body := releaseClear) (fun s h => ?_) hs e
    unfold releaseClear
    split
    · exact h
    · split
      · exact h
      · split
        · exact h
        · exact h
  case setFitted h x =>
    refine c.request (privileged_law (setFitted_law (fun s x hb h => ?_) x)) hs e
    exact busLaw_of_stopped (RunState.eq_stopped hb)
  case setBusConfig h r p sl =>
    refine c.request (privileged_law (setBusConfig_law (fun s x y z hb h => ?_) r p sl)) hs e
    exact busLaw_of_stopped (RunState.eq_stopped hb)
  case setRate h n => exact c.request (privileged_law (busLaw_setRate n)) hs e
  case powerUpHoldEnd dt p =>
    refine c.event (f := fun s => quiet (holdEnd p s)) (fun s hs => ?_) hs e
    rcases holdEnd_cases p s with h | ⟨hp, u, _, h⟩ <;> simp only [quiet, h]
    · exact hs
    · exact ⟨hs.1, fun _ => hs.2 hp⟩
  case resetRelease dt =>
    refine c.event (f := fun s => quiet (resetRelease s)) (fun s hs => ?_) hs e
    obtain ⟨u, h, hp⟩ := resetRelease_cases s
    simp only [quiet, h]
    exact ⟨hs.1, fun hu => hs.2 (hp.elim (fun hp => hp ▸ hu) And.left)⟩
  case configurationLoad dt a => exact c.event (busLaw_configurationLoad a) hs e
  case frameStart dt w => exact EventLaw.exec_frame c busLaw_frames sync hs (.inl e)
  case busSyncEdge dt w => exact EventLaw.exec_frame c busLaw_frames sync hs (.inr (.inl e))
  case busSyncLost dt =>
    exact EventLaw.exec_frame c busLaw_frames sync hs (w := Vector.replicate 16 none) (.inr (.inr e))
  case powerOn | lowSupply | resetPin | restart =>
    exact c.exec_reset (fun _ _ _ h => h) (fun _ _ _ => busLaw_of_stopped rfl) rfl hs e
  all_goals exact c.exec_disjoint free rfl rfl hs e

/-! ## The stale state (R42) -/

/-- The fields that the law of the stale state looks at. -/
def readsStale : Field → Bool
  | .startup | .settings | .joysticks => true
  | _ => false

theorem staleLaw_calm : Calm staleLaw where
  time dt s h := by
    unfold staleLaw
    rw [elapse_startup, elapse_settings, elapse_joysticks]
    exact h
  port _ _ _ _ h := h

theorem staleLaw_offFaults : OffFaults staleLaw :=
  ⟨⟨fun _ _ => rfl⟩, fun _ _ => rfl, fun _ _ => rfl, fun _ _ => rfl⟩

theorem staleLaw_raise (src : FaultSource) (info : RaiseInfo) (s : State) (h : staleLaw s) :
    staleLaw (raise src info s).state := by
  rw [raise_keeps staleLaw_offFaults]
  exact h

theorem staleLaw_settings : SettingsLaw staleLaw where
  settings s x hx h := by
    simp only [rulingSettings, Prod.mk.injEq] at hx
    obtain ⟨_, _, _, hstale⟩ := hx
    unfold staleLaw
    rw [hstale]
    exact h
  armed _ _ h := h
  blend _ _ h := h
  drives _ _ h := h
  escalation _ _ h := h

/-- A joystick that has become FRESH keeps the law. -/
theorem staleLaw_setJoystick_fresh {s : State} (m : Master) {j : Joystick} (hj : j.stale = .fresh)
    (h : staleLaw s) : staleLaw (s.setJoystick m j) := by
  intro hr hl
  show ((s.joysticks.set m j).get .supervisor).stale = .fresh
  rw [PerMaster.get_set]
  split
  · exact hj
  · exact h hr hl

/-- A master whose limit is not OFF may become STALE. -/
theorem staleLaw_enterStale {m : Master} {n : Nat} {s : State} (hm : s.settings.staleLimits.get m = some n)
    (h : staleLaw s) : staleLaw (enterStale m s).state := by
  refine staleLaw_raise _ _ _ fun hr hl => ?_
  show ((s.joysticks.set m _).get .supervisor).stale = .fresh
  rw [PerMaster.get_set]
  split
  · rename_i hsup
    have hl' : s.settings.staleLimits.get .supervisor = none := hl
    rw [hsup, hm] at hl'
    cases hl'
  · exact h hr hl

theorem staleLaw_staleEntry (m : Master) (s : State) (h : staleLaw s) : staleLaw (staleEntry m s).state := by
  unfold staleEntry
  split
  · split
    · exact staleLaw_enterStale ‹_› h
    · exact h
  · exact h

/-- A limit written keeps the law where it is not OFF, is another master's, or finds SUPERVISOR FRESH. -/
theorem staleLaw_setLimitOf {m : Master} {l : Option Nat} {s : State} (h : staleLaw s)
    (hm : l ≠ none ∨ m ≠ .supervisor ∨ (s.joysticks.get .supervisor).stale = .fresh) :
    staleLaw (setLimitOf m l s) := by
  intro hr hl
  have hl' : (s.settings.staleLimits.set m l).get .supervisor = none := hl
  rw [PerMaster.get_set] at hl'
  split at hl'
  · rcases hm with hn | hn | hf
    · exact absurd hl' hn
    · exact absurd (Eq.symm ‹_›) hn
    · exact hf
  · exact h hr hl'

theorem staleLaw_rejudgeStale (m : Master) (l : Option Nat) (s : State) (h : staleLaw s) :
    staleLaw (rejudgeStale m l (setLimitOf m l s)).state := by
  unfold rejudgeStale
  split
  · rename_i n _
    have hset := staleLaw_setLimitOf (m := m) (l := some n) h (.inl (Option.some_ne_none _))
    split
    · exact staleLaw_enterStale (PerMaster.get_set_same _ _ _) hset
    · exact hset
  · rename_i hfresh
    refine staleLaw_setLimitOf h (.inr ?_)
    by_cases hm : m = .supervisor
    · exact .inr (hm ▸ hfresh)
    · exact .inl hm
  · exact staleLaw_setLimitOf h (.inl (Option.some_ne_none _))
  · show staleLaw (setLimitOf m none (setStale m .fresh s))
    refine staleLaw_setLimitOf (staleLaw_setJoystick_fresh m rfl h) (.inr ?_)
    by_cases hm : m = .supervisor
    · exact .inr (by subst hm; rfl)
    · exact .inl hm

theorem staleLaw_setStaleLimit (r : Master) (m l : Nat) (s : State) (h : staleLaw s) :
    staleLaw (setStaleLimit r m l s).state := by
  unfold setStaleLimit
  split
  · exact h
  · split
    · split
      · exact h
      · exact staleLaw_rejudgeStale _ _ s h
    · exact h

theorem staleLaw_receiveJoy (m : Master) (d : PerAxis Int) (s : State) (h : staleLaw s) :
    staleLaw (receiveJoy m d s) := by
  unfold receiveJoy
  split
  · exact h
  · exact staleLaw_setJoystick_fresh (s := s.setPort m _) m rfl h

theorem staleLaw_frameReceived (m : Master) (l : List Octet) (s : State) (h : staleLaw s) :
    staleLaw (frameReceived m l s).state := by
  unfold frameReceived
  split
  · exact h
  · exact h
  · unfold judgeFrame
    split
    · exact whenever_keeps (P := staleLaw) (staleLaw_raise _ _) _ h
    · exact staleLaw_setJoystick_fresh (s := setBadRun m 0 s) m rfl h
    · exact staleLaw_calm.receiveRequest _ _ h

theorem staleLaw_setRate (n : Nat) (s : State) (h : staleLaw s) : staleLaw (setRate n s).state := by
  unfold setRate
  split
  · exact h
  · split
    · exact h
    · split
      · exact h
      · exact h

/-- The built-in limit of SUPERVISOR is not OFF. -/
theorem staleLaw_of_builtIn {s : State} (h : s.settings = Settings.builtIn) : staleLaw s := fun _ hl => by
  rw [h] at hl
  cases hl

theorem freshWhereOff_supervisor {l : PerMaster (Option Nat)} (j : PerMaster Joystick) (h : l.get .supervisor = none) :
    ((freshWhereOff l j).get .supervisor).stale = .fresh := by
  have h' : l.supervisor = none := h
  unfold freshWhereOff
  rw [h']
  rfl

theorem staleLaw_configurationLoad (a : MemoryAnswer) (s : State) (h : staleLaw s) :
    staleLaw (configurationLoad a s).state := by
  refine configurationLoad_law (staleLaw_raise _ _)
    (fun b s h => by rw [raiseActions_keeps staleLaw_offFaults]; exact h) h (staleLaw_of_builtIn rfl)
    (fun i m _ _ hl => freshWhereOff_supervisor _ hl) fun i m => ?_
  show staleLaw (openPorts (setPhase .ready ((raiseRecord _ _ _).setCache [])))
  refine staleLaw_of_builtIn ?_
  show (raiseRecord _ _ _).settings = _
  rw [raiseRecord_keeps (g := State.settings) ⟨⟨fun _ _ => rfl⟩, fun _ _ => rfl, fun _ _ => rfl, fun _ _ => rfl⟩]
  rfl

/-- Every command keeps the law of the stale state. -/
theorem staleLaw_exec (i : Instr) (s t : State) (hs : staleLaw s) (e : exec i s = .next t) : staleLaw t := by
  have c := staleLaw_calm
  have free : ∀ f, readsStale f = false → f.FreeIn staleLaw := fun f hf => by
    cases f <;> first | exact fun _ _ => rfl | cases hf
  cases i
  case setProfile | setView | setFaultTimers | setZone | setLimits | setFaultActions =>
    exact staleLaw_settings.exec c rfl hs e
  case setStaleLimit h m l => exact c.request (staleLaw_setStaleLimit h.link m l) hs e
  case setFitted h x => exact c.request (privileged_law (setFitted_law (fun _ _ _ h => h) x)) hs e
  case setBusConfig h r p sl => exact c.request (privileged_law (setBusConfig_law (fun _ _ _ _ _ h => h) r p sl)) hs e
  case setRate h n => exact c.request (privileged_law (staleLaw_setRate n)) hs e
  case joy dt m d => exact c.event (f := fun s => quiet (receiveJoy m d s)) (staleLaw_receiveJoy m d) hs e
  case frameReceived dt m l => exact c.event (staleLaw_frameReceived m l) hs e
  case staleEntry dt m => exact c.event (staleLaw_staleEntry m) hs e
  case powerUpHoldEnd dt p =>
    refine c.event (f := fun s => quiet (holdEnd p s)) (fun s hs => ?_) hs e
    rcases holdEnd_cases p s with h | ⟨_, u, hu, h⟩ <;> simp only [quiet, h]
    · exact hs
    · exact fun hr => absurd hr hu
  case resetRelease dt =>
    refine c.event (f := fun s => quiet (resetRelease s)) (fun s hs => ?_) hs e
    obtain ⟨u, h, hp⟩ := resetRelease_cases s
    simp only [quiet, h]
    exact fun hr => hp.elim (fun hp => hs (hp ▸ hr)) fun hp => absurd hr hp.2
  case configurationLoad dt a => exact c.event (staleLaw_configurationLoad a) hs e
  case powerOn | lowSupply | resetPin | restart =>
    exact c.exec_reset (fun _ _ _ h => h) (fun _ _ _ => staleLaw_of_builtIn rfl) rfl hs e
  all_goals exact c.exec_disjoint free rfl rfl hs e

/-- Settles O60: every writer of the counter writes a valid one and acts from READY on alone; BUS START checks the slot
map and the requests that change what it checked wait for STOPPED; and each way to OFF leaves SUPERVISOR FRESH. -/
theorem stepsKeepTimecodeBusAndStaleState : Obligations.StepsKeepTimecodeBusAndStaleState := by
  intro s t htc hbus hstale e
  obtain ⟨htc', hbus'⟩ := step_keeps (P := fun s => timecodeLaw s ∧ busLaw s)
    (fun dt s h => ⟨timecodeLaw_calm.time dt s h.1, busLaw_eventLaw.time dt s h.2⟩) (fun _ _ h => h)
    (fun i s t h e => ⟨timecodeLaw_exec i s t h.1 e, busLaw_exec i s t h.1 h.2 e⟩) ⟨htc, hbus⟩ e
  exact ⟨htc', hbus', step_keeps staleLaw_calm.time (fun _ _ h => h) staleLaw_exec hstale e⟩

end Sys2Proof.Machine
end

section
/-! PROOFS. The clock, the command queue and what the ports do with requests and frames (O1 to O7). -/

namespace Sys2Proof.Machine

/-! ## The command queue and the clock -/

/-- Settles O1: a step takes the front command off the queue. -/
theorem stepRunsTheFrontCommand : Obligations.StepRunsTheFrontCommand := fun _ _ _ => rfl

theorem lossCounts_eq (r : Rate) : lossCounts r = lossThreshold r := by cases r <;> rfl

theorem passTimebase_eq (dt : Nat) (s : State) : passTimebase dt s = { s with
    timebase :=
      if s.startup.phase = .loading ∨ s.startup.phase = .ready then
        { ms := s.timebase.ms + (s.timebase.counts + dt) / 10000, counts := (s.timebase.counts + dt) % 10000 }
      else s.timebase } := by
  unfold passTimebase
  cases s.startup.phase <;> rfl

theorem passGenlock_eq (dt : Nat) (s : State) : passGenlock dt s = { s with
    timecode := { s.timecode with
      period :=
        if s.timecode.lock = .noReference then s.timecode.period
        else min (lossThreshold s.settings.rate) (s.timecode.period + dt) } } := by
  unfold passGenlock
  split <;> rfl

theorem passSync_eq (dt : Nat) (s : State) : passSync dt s = { s with
    bus := { s.bus with
      syncCounter :=
        if s.bus.sync = .idle then s.bus.syncCounter
        else min (15 * s.settings.period) (s.bus.syncCounter + dt) } } := by
  unfold passSync
  split <;> rfl

/-- Settles O2: the three counters pass one after another, each by its own rule. -/
theorem countsMoveTheClockAndTheCounters : Obligations.CountsMoveTheClockAndTheCounters := by
  refine ⟨fun s hs => ?_, fun dt s => ?_⟩
  · unfold step
    rw [hs]
  · rw [lossCounts_eq]
    unfold elapse
    rw [passTimebase_eq, passGenlock_eq, passSync_eq]

/-- Every command but a reset leaves the queue of commands by its footprint, and a reset by its definition. -/
theorem exec_pending {i : Instr} {s t : State} (e : exec i s = .next t) : t.pending = s.pending := by
  have c : Calm fun t => t.pending = s.pending := ⟨fun dt u hu => by rwa [elapse_pending], fun _ _ _ _ h => h⟩
  have free : ∀ f : Field, f.FreeIn fun t => t.pending = s.pending := fun f => by cases f <;> exact fun _ _ => rfl
  cases hr : isReset i with
  | true => exact c.exec_reset (fun _ _ _ h => h) (fun _ _ h => h) hr rfl e
  | false => exact c.exec_disjoint (reads := fun _ => false) (fun f _ => free f) hr (by simp) rfl e

/-- Settles O3: a request is handed, held or dropped and an event happens, each with a next state. -/
theorem everyCommandAnswersANextState : Obligations.EveryCommandAnswersANextState := by
  intro i s
  have hnext : ∃ t, exec i s = .next t := by
    cases hi : requestHeader i with
    | some h =>
      obtain ⟨act, hact⟩ := exec_request hi
      rw [hact]
      exact handed_next _ _ _ _
    | none =>
      rw [exec_eq_event hi]
      exact ⟨_, event_next _ _ _⟩
  obtain ⟨t, ht⟩ := hnext
  exact ⟨t, ht, exec_pending ht⟩

/-! ## Requests at their port -/

theorem taken_iff {i : Instr} {h : Header} (hi : requestHeader i = some h) (s s0 : State) :
    taken i s s0 ↔ takenIn h i.unstamped s = some s0 := by
  unfold taken
  rw [hi]

/-- Settles O4: the cases are those of the port's own rule, which is the same for every request. -/
theorem requestsAreHandedHeldOrDropped : Obligations.RequestsAreHandedHeldOrDropped := by
  intro i h s hi s1 p
  obtain ⟨act, hact⟩ := exec_request hi
  simp only [hact, taken_iff hi]
  generalize i.unstamped = j
  unfold handed takenIn receiveRequest
  simp only [show elapse h.elapsed s = s1 from rfl, show s1.ports.get h.link = p from rfl]
  refine ⟨fun hl => ?closed, fun hl hh ht => ?waits, fun hl hh hr => ⟨fun hn => ?joins, fun hn => ?dropped⟩,
    fun hl hh ht => ?head, fun hl hr ht => ?arrives⟩
  case closed => simp only [hl]
  case waits => simp only [hl, hh, if_true, Nat.not_lt.2 ht, if_false]
  case joins =>
    have hwait : ¬(p.rx = [] ∧ p.tx.length < 8) := fun ⟨h1, h2⟩ => hr.elim (fun h => h h1) (Nat.not_le.2 h2)
    simp only [hl, hh, hwait, hn, if_true, if_false]
  case dropped =>
    have hwait : ¬(p.rx = [] ∧ p.tx.length < 8) := fun ⟨h1, h2⟩ => hr.elim (fun h => h h1) (Nat.not_le.2 h2)
    simp only [hl, hh, hwait, Nat.not_lt.2 hn, if_false]
  case head => simp only [hl, hh, ht, and_self, if_true]
  case arrives => simp only [hl, hr, ht, List.head?_nil, reduceCtorEq, and_self, if_true, if_false]

/-- A request other than RESTART that its port hands is answered by its body. -/
theorem exec_taken {i : Instr} {h : Header} {s s0 : State} (hi : requestHeader i = some h)
    (hr : isReset i = false) (ht : taken i s s0) : exec i s = .next (answer h (requestBody i s0)) := by
  rw [exec_eq_request hi hr]
  exact request_taken ((taken_iff hi s s0).1 ht)

theorem isReset_of_request {i : Instr} {h : Header} (hi : requestHeader i = some h)
    (hn : ∀ h', i ≠ .restart h') : isReset i = false := by
  cases i <;> first | rfl | exact absurd rfl (hn _) | cases hi

/-- Settles O5: the body leaves the transmit queues, the reply joins the requester's, and notices join behind it. -/
theorem everyTakenRequestIsAnsweredOnce : Obligations.EveryTakenRequestIsAnsweredOnce := by
  intro i h s s0 hi hn ht
  have hexec := exec_taken hi (isReset_of_request hi hn) ht
  obtain ⟨l, hl, hnotices⟩ := placeNotices_tx (requestBody i s0).posts
    (queueReply h (requestBody i s0).reply (requestBody i s0).state) h.link
  refine ⟨_, (requestBody i s0).reply, l, hexec, hnotices, ?_⟩
  have htx : ((requestBody i s0).state.ports.get h.link).tx = (s0.ports.get h.link).tx :=
    congrArg (fun t => t.2.1) (requestBody_traffic i s0 h.link)
  show ((placeNotices _ _).ports.get h.link).tx = _
  rw [hl]
  unfold queueReply
  simp only [State.setPort_ports, PerMaster.get_set_same, htx, List.append_assoc, List.singleton_append]

/-- RESTART checks the privilege first. -/
theorem restart_no {h : Header} {s : State} (hp : actsAsSupervisor s h.link = false) :
    restart h s = refusedWith h .notPermitted s := by
  unfold restart restartRefusal
  rw [hp]
  rfl

/-- Settles O6: the bodies of kinds 41 to 58 are those of privileged requests, and RESTART checks the same first. -/
theorem supervisorKindsNeedThePrivilege : Obligations.SupervisorKindsNeedThePrivilege := by
  refine ⟨fun i h s s0 hk hi ht hp => ?_, fun s m => ?_⟩
  · have hbody : isReset i = false → requestBody i s0 = refuse s0 .notPermitted →
        exec i s = .next (refusedWith h .notPermitted s0) := fun hr hb => by
      rw [exec_taken hi hr ht, hb, answer_refuse]
    cases i <;> simp only [requestHeader, Option.some.injEq, reduceCtorEq] at hi <;> subst hi <;>
      simp only [kindNumber, Nat.reduceLeDiff] at hk
    case restart h =>
      have hexec : exec (.restart h) s = .next (restart h s0) := handed_taken ht
      rw [hexec, restart_no hp]
    all_goals exact hbody rfl (privileged_no hp _)
  · unfold actsAsSupervisor
    cases s.startup.mode <;> simp

/-! ## Frames at their closing flag -/

theorem linkErrorOf_eq (m : Master) : linkErrorOf m = linkSource m := by cases m <;> rfl

/-- Settles O7: an OPEN port judges the frame, and each judgement is one write of the port. -/
theorem framesAreJudgedAtTheirFlag : Obligations.FramesAreJudgedAtTheirFlag := by
  intro dt m l s s1 p i
  have hexec : exec i s = .next (frameReceived m l s1).settle := event_next _ _ _
  have hjudge : p.link = .opened → l ≠ [] → frameReceived m l s1 = judgeFrame m l s1 := fun hl hne => by
    obtain ⟨o, rest, rfl⟩ := List.exists_cons_of_ne_nil hne
    unfold frameReceived
    rw [show (s1.ports.get m).link = .opened from hl]
  have hsome : ∀ x, frameInput m l = some x → l ≠ [] := fun x hx hnil => by
    rw [hnil] at hx
    cases hx
  rw [hexec]
  refine ⟨fun hnone => ?discarded, fun hl hne hf hb => ?bad, fun hl hne hf hb => ?raised, fun d hl hf => ?joy,
    fun r hl hf => ⟨fun hn => ?joins, fun hn => ?dropped⟩⟩
  case discarded =>
    unfold frameReceived
    cases hl : (s1.ports.get m).link with
    | closed => rfl
    | opened =>
      rw [hnone.resolve_left (by rw [hl]; decide)]
      rfl
  case bad =>
    rw [hjudge hl hne, judgeFrame, hf]
    show Host.Outcome.next (badFrame m s1).settle = _
    have hrun : ((s1.ports.get m).badRun == 7) = false := by simpa using hb
    rw [badFrame, hrun, whenever_false]
    rfl
  case raised =>
    have hrun : (s1.ports.get m).badRun = 7 := hb
    rw [hjudge hl hne, judgeFrame, hf, linkErrorOf_eq]
    show Host.Outcome.next (badFrame m s1).settle = _
    rw [badFrame, hrun, beq_self_eq_true, whenever_true]
    rfl
  case joy =>
    rw [hjudge hl (hsome _ hf), judgeFrame, hf]
    have hclamp : (fun a => clampTo (-2047) 2047 (d.get a)) = fun a => max (-2047) (min 2047 (d.get a)) :=
      funext fun a => clampTo_eq_max_min (by decide) _
    show Host.Outcome.next (takeSample m d (setBadRun m 0 s1)) = _
    unfold takeSample
    rw [hclamp]
    rfl
  case joins =>
    rw [hjudge hl (hsome _ hf), judgeFrame, hf]
    show Host.Outcome.next (receiveRequest m r s1) = _
    exact congrArg Host.Outcome.next (if_pos hn)
  case dropped =>
    rw [hjudge hl (hsome _ hf), judgeFrame, hf]
    show Host.Outcome.next (receiveRequest m r s1) = _
    exact congrArg Host.Outcome.next (if_neg (Nat.not_lt.2 hn))

end Sys2Proof.Machine
end

section
/-! PROOFS. What leaves the ports and joins their queues, the requests of the ports, and the readings (O10 to O13). -/

namespace Sys2Proof.Machine

/-! ## Requests that their port hands -/

section Taken
variable {i : Instr} {h : Header} {s s0 t : State} {c : RefusalCode} {d : ReplyData} {m : Emit}

theorem exec_refuses (hi : requestHeader i = some h) (hr : isReset i = false) (ht : taken i s s0)
    (hb : requestBody i s0 = refuse s0 c) : exec i s = .next (refusedWith h c s0) := by
  rw [exec_taken hi hr ht, hb, answer_refuse]

theorem exec_accepts (hi : requestHeader i = some h) (hr : isReset i = false) (ht : taken i s s0)
    (hb : requestBody i s0 = accept t d) : exec i s = .next (okay h d t) := by
  rw [exec_taken hi hr ht, hb, answer_accept]

theorem exec_acceptsWith (hi : requestHeader i = some h) (hr : isReset i = false) (ht : taken i s s0)
    (hb : requestBody i s0 = acceptWith m d) : exec i s = .next (placeNotices m.posts (okay h d m.state)) := by
  rw [exec_taken hi hr ht, hb, answer_acceptWith]

end Taken

/-! ## Frames sent and notices -/

theorem PerMaster.set_get_self {α : Type} (t : PerMaster α) (m : Master) : t.set m (t.get m) = t := by
  cases m <;> rfl

theorem State.setPort_self (s : State) (m : Master) : s.setPort m (s.ports.get m) = s := by
  unfold State.setPort
  rw [PerMaster.set_get_self]

theorem exec_frameLeavesQueue (dt : Nat) (m : Master) (s : State) :
    exec (.frameLeavesQueue dt m) s = .next (frameLeaves m (elapse dt s)) := rfl

theorem isNotice_eq (f : LinkFrame) : f.isNotice = (f.kind != 128#8) := by
  cases f with
  | reply => rfl
  | notice n => cases n <;> rfl

/-- Settles O10: the port sends its head, the notices join one by one, and the parts of an event follow each other. -/
theorem framesLeaveAndNoticesJoinTheQueue : Obligations.FramesLeaveAndNoticesJoinTheQueue := by
  refine ⟨fun dt m s => ?sent, fun p n => ⟨fun hl => ?closed, fun hl hn hx => ?placed, fun hl hn => ?lost⟩, fun l => ?held,
    fun _ _ => rfl, fun _ _ => ⟨rfl, rfl⟩, fun _ _ _ _ _ => ⟨rfl, rfl⟩, fun s m n => ⟨fun hm => ?standalone,
      fun hm => ?supervised⟩⟩
  case sent =>
    intro s1 p x
    have hx : x = .next (drawn (s1.setPort m (p.send (Config.openOctets s1.freeDraws)))) :=
      exec_frameLeavesQueue dt m s
    refine ⟨fun hidle => ?_, fun f rest hl ht => ⟨Config.openOctets s1.freeDraws, ?_⟩⟩
    · rw [hx, Port.send_idle _ hidle, State.setPort_self]
      rfl
    · rw [hx, Port.send_head _ hl ht]
      rfl
  case closed => unfold Port.take; rw [hl]
  case placed => unfold Port.take; rw [hl]; exact if_pos ⟨hn, hx⟩
  case lost =>
    unfold Port.take
    rw [hl]
    exact if_neg fun ⟨h1, h2⟩ => hn.elim (Nat.not_le.2 h1) (Nat.not_le.2 h2)
  case held => rw [noticesHeld, funext isNotice_eq]
  case standalone =>
    unfold linksInUse withSupervisor
    rw [hm]
    exact ⟨rfl, rfl⟩
  case supervised =>
    unfold linksInUse withSupervisor
    rw [hm]
    exact ⟨rfl, rfl⟩

/-! ## SET REPORT and STATUS -/

theorem setReport_accepts {m : Master} {n : Nat} {s : State} {v : Option Nat} (hv : intervalOf n = some v) :
    setReport m n s = accept (s.setPort m { s.ports.get m with interval := v, countdown := v.getD 0 }) .none := by
  unfold setReport
  rw [hv]

/-- Settles O11: the octet gives the interval, and STATUS is its own report. -/
theorem portRequestsReportAndCount : Obligations.PortRequestsReportAndCount := by
  refine ⟨fun h n s s0 ht => ⟨fun hn => ?off, fun hlo hhi => ?interval, fun hn => ?badArgument⟩, fun h s s0 ht => ?status⟩
  case off => exact exec_accepts rfl rfl ht (setReport_accepts (by rw [hn]; rfl))
  case interval =>
    have hv : intervalOf n = some (some n) := by
      unfold intervalOf
      rw [if_neg (by omega), if_pos hhi]
    exact exec_accepts rfl rfl ht (setReport_accepts hv)
  case badArgument =>
    have hv : intervalOf n = none := by
      unfold intervalOf
      rw [if_neg (by omega), if_neg (by omega)]
    refine exec_refuses rfl rfl ht ?_
    show setReport h.link n s0 = _
    unfold setReport
    rw [hv]
  case status => exact exec_accepts rfl rfl ht rfl

/-! ## Readings -/

/-- The readings without an argument are answered by what they report. -/
theorem wholeReadings : wholeReadingsChangeNothing :=
  ⟨fun _ _ _ => ⟨fun ht => exec_accepts rfl rfl ht rfl, fun ht => exec_accepts rfl rfl ht rfl,
    fun ht => exec_accepts rfl rfl ht rfl, fun ht => exec_accepts rfl rfl ht rfl, fun ht => exec_accepts rfl rfl ht rfl⟩,
    fun _ _ _ ht => exec_accepts rfl rfl ht rfl⟩

theorem queryAuthority_pass {s : State} {x : AxisSet} (hf : x &&& ~~~s.settings.fitted = 0#8) (hx : x ≠ 0#8) :
    queryAuthority x s = accept s (.authority ((AxisSet.members x).map (authorityReport s))) := by
  unfold queryAuthority
  rw [axisSetCheck_pass hf hx]

theorem queryAuthority_refuses {s : State} {x : AxisSet} {c : RefusalCode} (hc : axisSetCheck s x = some c) :
    queryAuthority x s = refuse s c := by
  unfold queryAuthority
  rw [hc]

theorem masterOf_number (m : Master) : masterOf (masterNumber m) = some m := by cases m <;> rfl

/-- The empty set names no axis, so none that is not fitted. -/
theorem axisSetCheck_of_empty {s : State} {x : AxisSet} (hx : x = 0#8) : axisSetCheck s x = some .badArgument := by
  rw [hx]
  exact axisSetCheck_empty s

/-- The readings by an argument are answered by what they report of it. -/
theorem readingsByArgument : readingsByArgumentChangeNothing := by
  refine ⟨fun h n s s0 => ⟨fun ht => ⟨fun a ha => ?limits, fun hn => ?noAxis⟩,
    fun ht => ⟨fun m hm => ?joystick, fun hn => ?noMaster⟩, fun ht => ⟨fun hn => ?directory, fun hn => ?noDirectory⟩,
    fun ht => ⟨fun hn => ?cueList, fun hn => ?noCueList⟩⟩,
    fun h x s s0 ht => ⟨fun hf => ?badAxis, fun hx => ?empty, fun hf hx => ?authority⟩⟩
  case limits =>
    refine exec_accepts rfl rfl ht (d := .limits (limitsReport s0 a)) ?_
    show queryLimits n s0 = _
    unfold queryLimits
    rw [ha, Axis.ofNumber_number]
  case noAxis =>
    refine exec_refuses rfl rfl ht ?_
    show queryLimits n s0 = _
    unfold queryLimits
    rw [axisOfNumber_none hn]
  case joystick =>
    refine exec_accepts rfl rfl ht (d := .joystick (joystickReport s0 m)) ?_
    show queryJoystick n s0 = _
    unfold queryJoystick
    rw [hm, masterOf_number]
  case noMaster =>
    refine exec_refuses rfl rfl ht ?_
    show queryJoystick n s0 = _
    unfold queryJoystick
    rw [masterOf_none hn]
  case directory => exact exec_accepts rfl rfl ht (if_pos hn)
  case noDirectory => exact exec_refuses rfl rfl ht (if_neg (Nat.not_lt.2 hn))
  case cueList => exact exec_accepts rfl rfl ht (if_pos hn)
  case noCueList => exact exec_refuses rfl rfl ht (if_neg (Nat.not_lt.2 hn))
  case badAxis => exact exec_refuses rfl rfl ht (queryAuthority_refuses (axisSetCheck_badAxis hf))
  case empty => exact exec_refuses rfl rfl ht (queryAuthority_refuses (axisSetCheck_of_empty hx))
  case authority => exact exec_accepts rfl rfl ht (queryAuthority_pass hf hx)

/-- Settles O12: each reading answers with its report, whose items are read off the state. -/
theorem readingsChangeNothing : Obligations.ReadingsChangeNothing := ⟨wholeReadings, readingsByArgument⟩

/-! ## Readings by items -/

/-- A reading by items answers with the first of them. -/
theorem exec_acceptsItems {i : Instr} {h : Header} {s s0 t : State} {α : Type} {n : Nat} {l : List α}
    {d : List α → ReplyData} (hi : requestHeader i = some h) (hr : isReset i = false) (ht : taken i s s0)
    (hb : requestBody i s0 = acceptItems t n l d) :
    exec i s = .next (queueReply h { refusal := none, omitted := l.length - n, data := d (l.take n) } t) := by
  rw [exec_taken hi hr ht, hb]
  rfl

theorem activeMoveOf_eq (s : State) (a : Axis) : activeMoveOf s a =
    (s.queue.find? fun m => m.state != .queued && AxisSet.has m.axes a).map Move.id := rfl

/-- Settles O13: the free value of the reply is the number of items that fit. -/
theorem itemReadingsShowWholeItems : Obligations.ItemReadingsShowWholeItems := by
  intro h s s0
  have hcheck : ∀ x, taken (.queryBlend h x) s s0 → ∀ c, axisSetCheck s0 x = some c →
      exec (.queryBlend h x) s = .next (refusedWith h c s0) := fun x ht c hc => by
    refine exec_refuses rfl rfl ht ?_
    show queryBlend x s0 = _
    unfold queryBlend
    rw [hc]
  refine ⟨fun ht => ⟨Config.replyItemsThatFit s0.freeDraws, exec_acceptsItems (l := s0.queue)
      (d := fun l => .queue l s0.nextMoveId) rfl rfl ht rfl⟩,
    fun ht => ⟨Config.replyItemsThatFit s0.freeDraws, exec_acceptsItems (l := zoneNumbers.map fun z =>
      ({ zone := s0.settings.zones[z], armed := s0.armed[z] } : ZoneReport)) (d := .zones) rfl rfl ht rfl⟩,
    fun x ht => ⟨fun hf => hcheck x ht _ (axisSetCheck_badAxis hf),
      fun hx => hcheck x ht _ (axisSetCheck_of_empty hx), fun hf hx =>
        ⟨Config.replyItemsThatFit s0.freeDraws, ?_⟩⟩⟩
  have hbody : queryBlend x s0 = acceptItems (drawn s0) (Config.replyItemsThatFit s0.freeDraws)
      ((AxisSet.members x).map (blendReport s0)) .blend := by
    unfold queryBlend
    rw [axisSetCheck_pass hf hx]
  rw [exec_acceptsItems rfl rfl ht hbody, List.length_map]
  rfl

end Sys2Proof.Machine
end

section
/-! PROOFS. Channels: the fitted set, the limits, the zones, the limiter and the zone check (O14 to O18). -/

namespace Sys2Proof.Machine

/-! ## Axis sets and tables -/

theorem AxisSet.ne_zero_iff {x : AxisSet} : x ≠ 0#8 ↔ ∃ a, AxisSet.has x a = true := by
  rw [Ne, AxisSet.eq_zero_iff]
  simp

theorem shares_eq_false {x y : AxisSet} :
    shares x y = false ↔ ∀ a, AxisSet.has x a = true → ¬ AxisSet.has y a = true := by
  simp [shares, AxisSet.eq_zero_iff]

theorem members_all {x : AxisSet} {p : Axis → Bool} :
    (AxisSet.members x).all p = true ↔ ∀ a, AxisSet.has x a = true → p a = true := by
  simp [List.all_eq_true]

theorem members_any {x : AxisSet} {p : Axis → Bool} :
    (AxisSet.members x).any p = true ↔ ∃ a, AxisSet.has x a = true ∧ p a = true := by
  simp [List.any_eq_true]

/-! ## SET FITTED (R2) -/

theorem leaving_iff {s : State} {x : AxisSet} {a : Axis} :
    AxisSet.has (s.settings.fitted &&& ~~~x) a = true ↔ leavesFitted s x a := by
  simp [leavesFitted]

theorem channelInUse_iff {s : State} {a : Axis} : channelInUse s a = true ↔
    ownerOf s a ≠ none ∨ (s.authority.get a).waiting ≠ [] ∨ ∃ m ∈ s.queue, AxisSet.has m.axes a = true := by
  simp [channelInUse, Option.isSome_iff_ne_none, or_assoc]

theorem leavingInUse_iff {s : State} {x : AxisSet} :
    (AxisSet.members (s.settings.fitted &&& ~~~x)).any (channelInUse s) = true ↔
      ∃ a, leavesFitted s x a ∧ (ownerOf s a ≠ none ∨ (s.authority.get a).waiting ≠ [] ∨
        ∃ m ∈ s.queue, AxisSet.has m.axes a = true) := by
  simp only [members_any, leaving_iff, channelInUse_iff]

/-- A zone keeps its flags where it shares no axis with those that leave. -/
theorem sharesNoLeaving_iff {s : State} {x y : AxisSet} :
    (!(shares y (s.settings.fitted &&& ~~~x))) = true ↔
      ∀ a, AxisSet.has y a = true → ¬ leavesFitted s x a := by
  rw [Bool.not_eq_true', shares_eq_false]
  simp only [leaving_iff]

/-- Settles O14: the checks are those of the request, and each zone is judged by the axes it shares with those that
leave. -/
theorem setFittedReplacesTheFittedSet : Obligations.SetFittedReplacesTheFittedSet := by
  intro h x s s0 ht hp inUse
  have hbody : requestBody (.setFitted h x) s0 = setFitted x s0 := privileged_yes hp _
  refine ⟨fun hrun => ?running, fun hstop huse => ?inUse, fun hstop huse => ?accepted⟩
  case running => exact exec_refuses rfl rfl ht (hbody.trans (if_pos hrun))
  case inUse =>
    have hrun : s0.bus.state ≠ .running := by rw [hstop]; decide
    exact exec_refuses rfl rfl ht (hbody.trans ((if_neg hrun).trans (if_pos (leavingInUse_iff.2 huse))))
  case accepted =>
    have hrun : s0.bus.state ≠ .running := by rw [hstop]; decide
    refine ⟨_, _, exec_accepts rfl rfl ht (t := refit x s0)
      (hbody.trans ((if_neg hrun).trans (if_neg (mt leavingInUse_iff.1 huse)))), fun n => ?_⟩
    rw [zonesWithout, eachZone_get, eachZone_get]
    refine ⟨rfl, rfl, ?_, ?_⟩
    · rw [← sharesNoLeaving_iff, ← Bool.and_eq_true]
    · rw [← sharesNoLeaving_iff, ← Bool.and_eq_true]

/-! ## SET LIMITS (R5) -/

theorem isPosition_iff {v : Int} : isPosition v = true ↔ -8388608 ≤ v ∧ v ≤ 8388607 := within_iff

theorem limitsOk_iff {l : Limits} : limitsOk l = true ↔ limitRanges l := by
  simp only [limitsOk, limitRanges, Bool.and_eq_true, decide_eq_true_eq, numberWithin_iff, isPosition_iff]
  omega

theorem historyFits_iff {l : Limits} {d : Demand} : historyFits l d = true ↔
    l.softMin ≤ d.d1 ∧ d.d1 ≤ l.softMax ∧ (d.d1 - d.d2).natAbs ≤ l.vmax := by
  simp only [historyFits, Bool.and_eq_true, within_iff, decide_eq_true_eq, and_assoc]

theorem namesUnfitted_eq_false {s : State} {a : Axis} :
    namesUnfitted s a.number = false ↔ AxisSet.has s.settings.fitted a = true := by
  rw [← Bool.not_eq_true, namesUnfitted_number, Classical.not_not]

theorem namesUnfitted_none {s : State} {n : Nat} (h : 7 < n) : namesUnfitted s n = false := by
  unfold namesUnfitted
  rw [axisOfNumber_none h]

/-- SET LIMITS of a fitted axis, behind the channel's own checks. -/
theorem setLimits_fitted {s : State} {a : Axis} (l : Limits) (hf : AxisSet.has s.settings.fitted a = true) :
    setLimits a.number l s =
      if limitsOk l then
        if isEnabled s a && !(historyFits l (s.demand.get a)) then refuse s .outOfLimits
        else accept (relimit a l s) .none
      else refuse s .badArgument := by
  unfold setLimits
  rw [namesUnfitted_eq_false.2 hf, Axis.ofNumber_number]
  rfl

/-- Settles O15: the ranges and the history are those of the model's two tests. -/
theorem setLimitsReplacesTheSettings : Obligations.SetLimitsReplacesTheSettings := by
  intro h n l s s0 i ht hp
  have hbody : requestBody i s0 = setLimits n l s0 := privileged_yes hp _
  refine ⟨fun hn => ?noChannel, fun a ha => ?channel⟩
  case noChannel =>
    refine exec_refuses rfl rfl ht (hbody.trans ?_)
    unfold setLimits
    rw [namesUnfitted_none hn, axisOfNumber_none hn]
    rfl
  case channel =>
    subst ha
    intro fitted d fits
    refine ⟨fun hf => ?badAxis, fun hf hl => ?badArgument, fun hf hl he hfits => ?outOfLimits, fun hf hl hfits => ?accepted⟩
    case badAxis => exact exec_refuses rfl rfl ht (hbody.trans (if_pos (namesUnfitted_number.2 hf)))
    case badArgument =>
      refine exec_refuses rfl rfl ht (hbody.trans ?_)
      rw [setLimits_fitted l hf, if_neg (mt limitsOk_iff.1 hl)]
    case outOfLimits =>
      refine exec_refuses rfl rfl ht (hbody.trans ?_)
      have hhist : historyFits l (s0.demand.get a) = false := Bool.eq_false_iff.2 (mt historyFits_iff.1 hfits)
      rw [setLimits_fitted l hf, if_pos (limitsOk_iff.2 hl), he, hhist]
      rfl
    case accepted =>
      intro b v old
      have hpass : ¬(isEnabled s0 a && !(historyFits l (s0.demand.get a))) = true := by
        rw [Bool.and_eq_true, Bool.not_eq_true']
        exact fun ⟨he, hh⟩ => Bool.eq_false_iff.1 hh (historyFits_iff.2 (hfits he))
      have hexec := exec_accepts rfl rfl ht (t := relimit a l s0) (d := .none)
        (hbody.trans (by rw [setLimits_fitted l hf, if_pos (limitsOk_iff.2 hl), if_neg hpass]))
      rw [hexec, relimit, clampTo_eq_max_min (by omega)]
      rfl

/-! ## SET ZONE (R11) -/

theorem flagOf_eq_some {e : Nat} {b : Bool} (h : flagOf e = some b) : e ≤ 1 ∧ (b = true ↔ e = 1) := by
  unfold flagOf at h
  split at h
  · cases h; decide
  · cases h; decide
  · cases h

theorem flagOf_of_le {e : Nat} (h : e ≤ 1) : flagOf e = some (e == 1) := by
  have he : e = 0 ∨ e = 1 := by omega
  rcases he with rfl | rfl <;> rfl

theorem boundsOk_iff {b : Int × Int} : boundsOk b = true ↔ -8388608 ≤ b.1 ∧ b.1 ≤ b.2 ∧ b.2 ≤ 8388607 := by
  simp only [boundsOk, Bool.and_eq_true, isPosition_iff, decide_eq_true_eq]
  omega

theorem members_nodup (x : AxisSet) : (AxisSet.members x).Nodup := by
  unfold AxisSet.members
  exact List.Pairwise.filter _ (by decide)

/-- Bounds spread on the axes of a set and read off in channel order are the bounds again. -/
theorem spreadBounds_members {x : AxisSet} {bs : List (Int × Int)} (h : bs.length = axisCount x) :
    ((AxisSet.members x).map fun a => (((spreadBounds x bs).get a).lo, ((spreadBounds x bs).get a).hi)) = bs := by
  refine List.ext_getElem (by rw [List.length_map, h]; rfl) fun i hi hb => ?_
  rw [List.length_map] at hi
  have hmem : AxisSet.has x (AxisSet.members x)[i] = true := (AxisSet.mem_members _ _).1 (List.getElem_mem hi)
  have hidx : (AxisSet.members x).idxOf (AxisSet.members x)[i] = i := (members_nodup x).idxOf_getElem i hi
  simp [spreadBounds, hmem, hidx, List.getElem?_eq_getElem hb]

theorem zoneOf_of_arguments {n e : Nat} {x : AxisSet} {bs : List (Int × Int)} (h : zoneArguments n e x bs) :
    zoneOf e x bs = some { enabled := e == 1, axes := x, bounds := spreadBounds x bs } := by
  obtain ⟨_, he, hlo, hhi, hlen, hbs⟩ := h
  unfold zoneOf
  rw [flagOf_of_le he]
  exact if_pos ⟨numberWithin_iff.2 ⟨hlo, hhi⟩, hlen, List.all_eq_true.2 fun b hb => boundsOk_iff.2 (hbs b hb)⟩

theorem arguments_of_zoneOf {n e : Nat} {x : AxisSet} {bs : List (Int × Int)} {z : ZoneSetting}
    (hz : zoneOf e x bs = some z) (hn : n < 8) : zoneArguments n e x bs := by
  unfold zoneOf at hz
  split at hz
  · rename_i b hb
    split at hz
    · rename_i hc
      obtain ⟨hcount, hlen, hall⟩ := hc
      obtain ⟨hlo, hhi⟩ := numberWithin_iff.1 hcount
      exact ⟨hn, (flagOf_eq_some hb).1, hlo, hhi, hlen, fun b hb => boundsOk_iff.1 (List.all_eq_true.1 hall b hb)⟩
    · cases hz
  · cases hz

theorem inside_iff {z : ZoneSetting} {v : PerAxis Int} : inside z v = true ↔
    ∀ a, AxisSet.has z.axes a = true → (z.bounds.get a).lo ≤ v.get a ∧ v.get a ≤ (z.bounds.get a).hi := by
  simp only [inside, members_all, within_iff]

/-- A zone whose axes' D1 are not inside it has one that lies outside. -/
theorem outside_iff {z : ZoneSetting} {s : State} : (!(inside z (demands s))) = true ↔
    ∃ a, AxisSet.has z.axes a = true ∧ (d1Of s a < (z.bounds.get a).lo ∨ (z.bounds.get a).hi < d1Of s a) := by
  rw [Bool.not_eq_true', ← Bool.not_eq_true, inside_iff]
  simp only [demands, PerAxis.get_ofFn, Classical.not_forall, exists_prop, Classical.not_and_iff_not_or_not, Int.not_le]

/-- Settles O16: the zone is the one its arguments give, its bounds laid on its axes in channel order. -/
theorem setZoneRewritesTheZone : Obligations.SetZoneRewritesTheZone := by
  intro h n e x bs s s0 i ht hp
  have hbody : requestBody i s0 = setZone n e x bs s0 := privileged_yes hp _
  refine ⟨fun hf => ?badAxis, fun hf harg => ?badArgument, fun hf harg => ?accepted⟩
  case badAxis => exact exec_refuses rfl rfl ht (hbody.trans (if_pos hf))
  case badArgument =>
    refine exec_refuses rfl rfl ht (hbody.trans ((if_neg (Classical.not_not.2 hf)).trans ?_))
    split
    · rename_i z hz
      exact dif_neg fun hn => harg (arguments_of_zoneOf hz hn)
    · rfl
  case accepted =>
    have hn : n < 8 := harg.1
    have hlen : bs.length = axisCount x := harg.2.2.2.2.1
    refine ⟨hn, { enabled := e == 1, axes := x, bounds := spreadBounds x bs }, _,
      exec_accepts rfl rfl ht (t := rezone ⟨n, hn⟩ { enabled := e == 1, axes := x, bounds := spreadBounds x bs } s0)
        (hbody.trans ((if_neg (Classical.not_not.2 hf)).trans ?_)), rfl, by simp, spreadBounds_members hlen, ?_⟩
    · rw [zoneOf_of_arguments harg]
      exact dif_pos hn
    · rw [Bool.and_eq_true, outside_iff, beq_iff_eq]

/-! ## The limiter (R7, R8) -/

theorem unclamped_eq (l : Limits) (d : Demand) (r : Int) : unclamped l d r =
    d.d1 + max (-(l.vmax : Int)) (min l.vmax
      (max (d.d1 - d.d2 - l.amax) (min (d.d1 - d.d2 + l.amax) (r - d.d1)))) := by
  unfold unclamped limitedVelocity
  rw [clampTo_eq_max_min (by omega), clampTo_eq_max_min (by omega)]

theorem candidate_eq {l : Limits} (d : Demand) (r : Int) (h : l.softMin ≤ l.softMax) :
    candidate l d r = max l.softMin (min l.softMax (unclamped l d r)) := clampTo_eq_max_min h _

theorem judgeClamp_clamped (changed : Bool) (a : Axis) (s : State) :
    (judgeClamp changed a s).state.clamped.get a = changed := by
  have hkeeps : (judgeClamp changed a s).state.clamped = (setClamped a changed s).clamped :=
    whenever_same (g := State.clamped)
      (raise_keeps ⟨⟨fun _ _ => rfl⟩, fun _ _ => rfl, fun _ _ => rfl, fun _ _ => rfl⟩ _ _) _ _
  rw [hkeeps]
  exact PerAxis.get_set_same _ _ _

/-- Settles O17: each clamp is a maximum of a minimum, so the arithmetic of the four is linear. -/
theorem limiterClampsInFourSteps : Obligations.LimiterClampsInFourSteps := by
  refine ⟨fun l d r => ?_, fun l d r hsoft => ?_, fun changed a s => ⟨judgeClamp_clamped changed a s, fun hc hs => ?_,
    fun hq => ?_⟩⟩
  · intro v2 v3 c
    have hun : unclamped l d r = d.d1 + v3 := unclamped_eq l d r
    refine ⟨hun, fun hsoft => hun ▸ candidate_eq d r hsoft, fun hlo hhi => ?_⟩
    have hc : c = max l.softMin (min l.softMax (d.d1 + v3)) := hun ▸ candidate_eq d r (by omega)
    have hv3 : v3 = max (-(l.vmax : Int)) (min l.vmax v2) := rfl
    omega
  · rw [stepFourClamps, candidate_eq d r hsoft, bne_iff_ne]
    omega
  · rw [judgeClamp, hc, hs]
    rfl
  · have hquiet : (changed && !(s.clamped.get a)) = false := by
      rcases hq with hc | hs
      · rw [hc]; rfl
      · rw [hs, Bool.not_true, Bool.and_false]
    rw [judgeClamp, hquiet]
    rfl

/-! ## The zone check (R12) -/

theorem allEnabled_iff {s : State} {z : ZoneSetting} :
    allEnabled s z = true ↔ ∀ a, AxisSet.has z.axes a = true → isEnabled s a = true := members_all

/-- When a zone replaces candidates. -/
theorem checkZone_test {s : State} {p : ZonePass} {n : Fin 8} :
    (s.settings.zones[n].enabled && s.armed[n] && allEnabled s s.settings.zones[n] &&
      inside s.settings.zones[n] p.candidates) = true ↔
    s.settings.zones[n].enabled = true ∧ s.armed[n] = true ∧ ∀ a, AxisSet.has s.settings.zones[n].axes a = true →
      isEnabled s a = true ∧ (s.settings.zones[n].bounds.get a).lo ≤ p.candidates.get a ∧
        p.candidates.get a ≤ (s.settings.zones[n].bounds.get a).hi := by
  simp only [Bool.and_eq_true, allEnabled_iff, inside_iff, and_assoc]
  exact ⟨fun ⟨he, ha, h1, h2⟩ => ⟨he, ha, fun a h => ⟨h1 a h, h2 a h⟩⟩,
    fun ⟨he, ha, h⟩ => ⟨he, ha, fun a hx => (h a hx).1, fun a hx => (h a hx).2⟩⟩

theorem disarmReleased_armed {s : State} {n : Fin 8} : (disarmReleased s).armed[n] = true ↔ s.armed[n] = true ∧
    ¬ (s.settings.zones[n].enabled = true ∧
      ∃ a, AxisSet.has s.settings.zones[n].axes a = true ∧ isEnabled s a = false) := by
  have hall : allEnabled s s.settings.zones[n] = false ↔
      ∃ a, AxisSet.has s.settings.zones[n].axes a = true ∧ isEnabled s a = false := by
    rw [← Bool.not_eq_true, allEnabled_iff]
    simp
  rw [← hall, disarmReleased, eachZone_get]
  generalize s.armed[n] = armed
  generalize s.settings.zones[n].enabled = enabled
  generalize allEnabled s s.settings.zones[n] = whole
  revert armed enabled whole
  decide

/-- The raises of the limiter and of the zones leave the demands. -/
theorem limitRaises_demand (x : List Axis) (hit : Axis → Bool) (z : List (Fin 8)) (s : State) :
    (emitEach z raiseZoneEntry (emitEach x (fun a => judgeClamp (hit a) a) s).state).state.demand = s.demand :=
  limitRaises_keep (g := State.demand)
    (raise_keeps ⟨⟨fun _ _ => rfl⟩, fun _ _ => rfl, fun _ _ => rfl, fun _ _ => rfl⟩) (fun _ _ _ => rfl) _ _ _ _

/-- Settles O18: the check is a fold over the zones, the raises keep the demands, and the stage writes what the check
leaves. -/
theorem zoneCheckReplacesAndRaises : Obligations.ZoneCheckReplacesAndRaises := by
  refine ⟨fun s c => rfl, fun s p n => ⟨fun hr => ?replaces, fun hr => ?keeps, rfl, ⟨_, rfl⟩, disarmReleased_armed⟩,
    fun x k s => ?stage⟩
  case replaces =>
    rw [checkZone, if_pos (checkZone_test.2 hr)]
    exact ⟨rfl, fun a => PerAxis.get_ofFn _ a⟩
  case keeps => rw [checkZone, if_neg (mt checkZone_test.1 hr)]
  case stage =>
    intro c hit z raised t
    have hhit : (fun a => judgeClamp (AxisSet.has (clampedSet k s) a) a) = fun a => judgeClamp (hit a) a :=
      funext fun a => by rw [clampedSet, AxisSet.has_ofTest]; rfl
    have hstage : limitStage x k s = raised.andThen fun s => quiet (writeDemands x k z.candidates (disarmReleased s)) := by
      unfold limitStage
      simp only [hhit]
      rfl
    have hdemand : raised.state.demand = s.demand := limitRaises_demand _ _ _ _
    have ht : t = writeDemands x k z.candidates (disarmReleased raised.state) := congrArg Emit.state hstage
    refine ⟨?_, ⟨_, _, _, ht⟩, by rw [ht]; rfl, fun a => ⟨fun hx => ?_, fun hx => ?_⟩⟩
    · rw [hstage, andThen_posts, quiet_posts, List.append_nil]
    · rw [ht]
      simp only [writeDemands, PerAxis.get_ofFn, hx, if_true, ← hdemand]
      exact ⟨rfl, rfl⟩
    · rw [ht]
      simp only [writeDemands, PerAxis.get_ofFn, hx, Bool.false_eq_true, if_false, ← hdemand]
      exact ⟨rfl, rfl⟩

end Sys2Proof.Machine
end

section
/-! PROOFS. What a withdrawal and entry into RELEASED make of the queue, in the words of the statements. -/

namespace Sys2Proof.Machine

/-! ## Withdrawal -/

theorem moveWithout_withdraw {x : AxisSet} {leaves : Axis → Prop} (hl : ∀ a, leaves a ↔ AxisSet.has x a = true)
    (m : Move) : moveWithout leaves m (m.withdraw x) := by
  refine ⟨rfl, fun a => ?_, fun hs => ?_, fun g hg => ⟨_, congrArg (Option.map _) hg, rfl,
    fun a => ⟨fun ha => ?_, fun ha => ?_⟩⟩⟩
  · rw [Move.withdraw_axes, AxisSet.has_and, AxisSet.has_not, hl]
    simp
  · unfold Move.withdraw
    rw [hs]
    rfl
  · rw [PerAxis.get_ofFn, if_pos ((hl a).1 ha)]
  · rw [PerAxis.get_ofFn, if_neg (mt (hl a).2 ha)]

/-- A withdrawal from rewritten moves leaves the queue without the axes. -/
theorem movesWithout_withdraw {x : AxisSet} {leaves : Axis → Prop} {f : Move → Move} (q : List Move)
    (hl : ∀ a, leaves a ↔ AxisSet.has x a = true) (hid : ∀ m, (f m).id = m.id) (haxes : ∀ m, (f m).axes = m.axes) :
    movesWithout leaves f q (((q.map f).map (Move.withdraw x)).filter fun m => !(Move.emptied m)) := by
  have hids : ((q.map f).map (Move.withdraw x)).map Move.id = q.map Move.id := by
    rw [List.map_map, List.map_map]
    exact List.map_congr_left fun m _ => hid m
  refine ⟨hids ▸ List.filter_sublist.map _, fun m' hm' => ?_, fun m hm hstay => ?_⟩
  · obtain ⟨hmap, hkept⟩ := List.mem_filter.1 hm'
    obtain ⟨fm, hfm, rfl⟩ := List.mem_map.1 hmap
    obtain ⟨m, hm, rfl⟩ := List.mem_map.1 hfm
    exact ⟨by simpa [Move.emptied] using hkept, m, hm, moveWithout_withdraw hl _⟩
  · obtain ⟨a, ha, hstays⟩ := hstay
    refine ⟨(f m).withdraw x, List.mem_filter.2 ⟨List.mem_map_of_mem (List.mem_map_of_mem hm), ?_⟩, hid m⟩
    have hne : (f m).axes &&& ~~~x ≠ 0#8 := AxisSet.ne_zero_iff.2 ⟨a, by
      rw [hl, Bool.not_eq_true] at hstays
      simp [haxes, ha, hstays]⟩
    simpa [Move.emptied] using hne

/-- Under ids without repeats the moves gone are those that a test took out. -/
theorem movesGone_map_filter {q : List Move} {g : Move → Move} {p : Move → Bool} (hn : (q.map Move.id).Nodup)
    (hid : ∀ m, (g m).id = m.id) : movesGone q ((q.map g).filter p) = q.filter fun m => !(p (g m)) := by
  refine List.filter_congr fun m hm => congrArg (! ·) ?_
  rw [Bool.eq_iff_iff, List.any_eq_true]
  refine ⟨fun ⟨m', hm', heq⟩ => ?_, fun hp => ⟨g m, List.mem_filter.2 ⟨List.mem_map_of_mem hm, hp⟩, ?_⟩⟩
  · obtain ⟨hmap, hp⟩ := List.mem_filter.1 hm'
    obtain ⟨n, hnq, rfl⟩ := List.mem_map.1 hmap
    rw [beq_iff_eq, hid] at heq
    rwa [← eq_of_nodup_map hn hnq hm heq]
  · rw [beq_iff_eq, hid]

theorem withdrawWith_posts {x : AxisSet} {o : Move → MoveOutcome} {s : State} (hn : (s.queue.map Move.id).Nodup)
    (ho : ∀ m, o (m.withdraw x) = o m) : (withdrawWith x o s).posts =
      doneNotices s o (movesGone s.queue (withdrawWith x o s).state.queue) := by
  rw [withdrawWith_queue, movesGone_map_filter (g := Move.withdraw x) hn fun _ => rfl]
  have hfilter : (s.queue.map (Move.withdraw x)).filter Move.emptied =
      (s.queue.filter fun m => Move.emptied (m.withdraw x)).map (Move.withdraw x) := List.filter_map
  show ((s.queue.map (Move.withdraw x)).filter Move.emptied).flatMap _ = _
  simp only [hfilter, List.flatMap_map, Bool.not_not]
  unfold doneNotices
  refine congrArg (List.flatMap · _) (funext fun m => ?_)
  show withSupervisor s m.requester (.moveDone m.id m.record (o (m.withdraw x))) = _
  rw [ho]

/-- A withdrawal other than by ABORT, whole. -/
theorem withdraw_eq {x : AxisSet} {s : State} (hn : (s.queue.map Move.id).Nodup) : withdraw x s =
    { state := { s with queue := (withdraw x s).state.queue }
      posts := doneNotices s (fun _ => .withdrawn) (movesGone s.queue (withdraw x s).state.queue) } := by
  have hposts : (withdraw x s).posts =
      doneNotices s (fun _ => .withdrawn) (movesGone s.queue (withdraw x s).state.queue) :=
    withdrawWith_posts hn fun _ => rfl
  rw [← hposts]
  rfl

theorem withdraw_movesWithout {x : AxisSet} {leaves : Axis → Prop} (s : State)
    (hl : ∀ a, leaves a ↔ AxisSet.has x a = true) :
    movesWithout leaves id s.queue (withdraw x s).state.queue := by
  have h := movesWithout_withdraw s.queue (f := id) hl (fun _ => rfl) fun _ => rfl
  rwa [List.map_id] at h

/-! ## Entry into RELEASED -/

theorem removeMoves_eq (p : Move → Bool) (o : Move → MoveOutcome) (s : State) : removeMoves p o s =
    { state := { s with queue := s.queue.filter fun m => !(p m) }, posts := doneNotices s o (s.queue.filter p) } := rfl

theorem releaseDrives_eq (s : State) : releaseDrives s = { s with
    bus := { s.bus with
      latch := true
      drives := PerAxis.ofFn fun a => { s.bus.drives.get a with enable := .released } } } := by
  have hdrives : mapAt AxisSet.full (fun d : Drive => { d with enable := .released }) s.bus.drives =
      PerAxis.ofFn fun a => { s.bus.drives.get a with enable := .released } :=
    PerAxis.ext_get fun a => by simp
  unfold releaseDrives
  rw [hdrives]

theorem enterReleased_eq (s : State) : enterReleased s = releasedFrom s := by
  unfold enterReleased
  rw [releaseDrives_eq, removeMoves_eq, filter_all]
  simp only [Bool.not_true, filter_nothing]
  rfl

end Sys2Proof.Machine
end

section
/-! PROOFS. The frame computation: stage 2, the demands it writes, and what follows stage 6 (O19, O20). -/

namespace Sys2Proof.Machine

/-! ## Stage 2 (R103, R111) -/

/-- The blend record of an axis after stage 2. -/
def blendAfter (x : AxisSet) (k : PerAxis Int) (s : State) (a : Axis) : Blend :=
  if AxisSet.has x a then
    baseStage (d1Of s a) (k.get a) (shapedVelocity s a) (s.settings.limits.get a).trimRange (s.blend.get a)
  else s.blend.get a

theorem completed_mode (b : Blend) : (completed b).mode = if b.weight = 256 then .live else b.mode := by
  unfold completed
  split <;> rfl

/-- A handoff ends where its weight reaches 256. -/
theorem handoffEnds_iff {x : AxisSet} {k : PerAxis Int} {s : State} {a : Axis} :
    ((s.blend.get a).mode == .handoff && (blendAfter x k s a).mode == .live) = true ↔
      AxisSet.has x a = true ∧ (s.blend.get a).mode = .handoff ∧
        256 ≤ (s.blend.get a).weight + (s.blend.get a).step := by
  rw [Bool.and_eq_true, beq_iff_eq, beq_iff_eq]
  unfold blendAfter
  by_cases hx : AxisSet.has x a = true
  · rw [if_pos hx]
    simp only [hx, true_and]
    refine and_congr_right fun hm => ?_
    rw [baseStage, hm, completed_mode]
    simp only [progressed, hm]
    split
    · exact iff_of_true rfl (by omega)
    · exact iff_of_false nofun (by omega)
  · rw [if_neg hx]
    exact iff_of_false (fun ⟨hh, hl⟩ => by rw [hh] at hl; cases hl) fun h => hx h.1

theorem baseStage_table (d1 k v : Int) (range : Nat) (b : Blend) :
    stageTwoTable d1 k v range b (baseStage d1 k v range b) := by
  have htrim : ∀ v : Int, clampTo (-(range : Int)) range v = max (-(range : Int)) (min range v) := fun v =>
    clampTo_eq_max_min (by omega) v
  have hlive : ∀ v : Int, clampTo positionMin positionMax v = max (-8388608) (min 8388607 v) := fun v =>
    clampTo_eq_max_min (by decide) v
  unfold baseStage
  refine ⟨fun hm => ?_, fun hm => ?_, fun hm => ?_, fun hm => ?_, fun hm hw => ?_, fun hm hw => ?_⟩ <;> rw [hm]
  · show trimmed range v b = _
    rw [trimmed, htrim, hm]
  · have hne : ¬(progressed v b).weight = 256 := Nat.ne_of_lt hw
    show completed (progressed v b) = _
    rw [completed, if_neg hne, progressed, hlive]
    simp only [crossfade, hm]
  · have heq : (progressed v b).weight = 256 := hw
    show completed (progressed v b) = _
    rw [completed, if_pos heq, progressed, hlive]
    rfl

/-- Stage 2 is a withdrawal of the axes whose handoff ends, on the records it writes. -/
theorem stageTwo_eq (x : AxisSet) (k : PerAxis Int) (s : State) : stageTwo x k s =
    withdraw (AxisSet.ofTest fun a => (s.blend.get a).mode == .handoff && (blendAfter x k s a).mode == .live)
      { s with blend := PerAxis.ofFn (blendAfter x k s) } := by
  unfold stageTwo
  simp only [PerAxis.get_ofFn]
  rfl

theorem stageTwo_modes : stageTwoFollowsTheModes := by
  intro x k s hn
  rw [stageTwo_eq]
  refine ⟨PerAxis.ofFn (blendAfter x k s), _, withdraw_eq hn, withdraw_movesWithout _ fun a => ?_, fun a =>
    ⟨fun hx => ?_, fun hx => ?_⟩⟩
  · rw [AxisSet.has_ofTest, handoffEnds_iff]
  · rw [PerAxis.get_ofFn, blendAfter, hx]
    rfl
  · rw [PerAxis.get_ofFn, blendAfter, if_pos hx]
    exact baseStage_table _ _ _ _ _

/-! ## Coupling offsets (R105) -/

theorem couplings_toList (s : State) : s.couplings.toList = couplingNumbers.map fun n => s.couplings[n] := by
  generalize s.couplings = v
  refine List.ext_getElem (by simp [couplingNumbers]) fun i hi hj => ?_
  rw [Vector.length_toList] at hi
  have hall : i = 0 ∨ i = 1 ∨ i = 2 ∨ i = 3 := by omega
  rcases hall with rfl | rfl | rfl | rfl <;> rfl

/-- A sum over the items that pass a test is a sum with nothing in the place of the others. -/
theorem sum_filter_map {α : Type} (p : α → Bool) (f : α → Int) (l : List α) :
    ((l.filter p).map f).sum = (l.map fun x => if p x then f x else 0).sum := by
  induction l with
  | nil => rfl
  | cons x l ih =>
    rw [List.filter_cons, List.map_cons, List.sum_cons, ← ih]
    split
    · rw [List.map_cons, List.sum_cons]
    · rw [Int.zero_add]

theorem couplingOffset_eq (s : State) (a : Axis) : couplingOffset s a = offsetBySum s a := by
  unfold offsetBySum couplingOffset
  rw [couplings_toList, sum_filter_map, List.map_map]
  refine congrArg List.sum (List.map_congr_left fun n _ => ?_)
  simp only [Function.comp_apply, Bool.and_eq_true, beq_iff_eq]
  rfl

/-! ## The zone check on candidates -/

/-- The zone check looks at demands, settings, armed flags and enables alone. -/
theorem zoneCheck_congr {s t : State} (h : besideBlend t = besideBlend s) (c : PerAxis Int) :
    zoneCheck t c = zoneCheck s c := by
  simp only [besideBlend, Prod.mk.injEq] at h
  obtain ⟨hdemand, hsettings, harmed, hbus⟩ := h
  have hzone : checkZone t = checkZone s := by
    funext p n
    unfold checkZone allEnabled isEnabled d1Of
    rw [hdemand, hsettings, harmed, hbus]
  unfold zoneCheck
  rw [hzone]

/-- The zone check leaves a candidate, or puts the axis's D1 in its place. -/
theorem zoneCheck_candidate (s : State) (c : PerAxis Int) (a : Axis) :
    (zoneCheck s c).candidates.get a = c.get a ∨ (zoneCheck s c).candidates.get a = d1Of s a := by
  have hfold : ∀ (l : List (Fin 8)) (p : ZonePass),
      (p.candidates.get a = c.get a ∨ p.candidates.get a = d1Of s a) →
      ((l.foldl (checkZone s) p).candidates.get a = c.get a ∨
        (l.foldl (checkZone s) p).candidates.get a = d1Of s a) := by
    intro l
    induction l with
    | nil => exact fun p h => h
    | cons n l ih =>
      refine fun p h => ih _ ?_
      unfold checkZone
      split
      · simp only [PerAxis.get_ofFn]
        split
        · exact .inr rfl
        · exact h
      · exact h
  exact hfold _ _ (.inl rfl)

/-! ## The demands of a frame computation -/

theorem isDriven_iff {s : State} {a : Axis} : AxisSet.has (drivenSet s) a = true ↔ isDriven s a := by
  simp [drivenSet, enabledSet, isDriven]

theorem isTracked_iff {s : State} {a : Axis} : AxisSet.has (trackedSet s) a = true ↔
    AxisSet.has s.settings.fitted a = true ∧ isEnabled s a = false := by
  simp [trackedSet, enabledSet]

theorem releasedTracking_eq (y : AxisSet) (k : PerAxis Int) (s : State) : releasedTracking y k s =
    { s with
      demand := PerAxis.ofFn fun a =>
        if AxisSet.has y a then { d1 := (s.bus.drives.get a).feedback, d2 := (s.bus.drives.get a).feedback }
        else s.demand.get a
      blend := PerAxis.ofFn fun a =>
        if AxisSet.has y a then
          { s.blend.get a with
            mode := .hold, trim := 0, weight := 0, base := (s.bus.drives.get a).feedback - k.get a }
        else s.blend.get a
      clamped := PerAxis.ofFn fun a => if AxisSet.has y a then false else s.clamped.get a } := rfl

theorem computeDemands_eq (x y : AxisSet) (k : PerAxis Int) (s : State) : computeDemands x y k s =
    (((presetStep k s).andThen (stageTwo x k)).andThen (limitStage x k)).andThen fun t =>
      { state := releasedTracking y k t, posts := [] } := rfl

/-- The state on which the limiter works: behind the preset step and stage 2. -/
def movedState (x : AxisSet) (k : PerAxis Int) (s : State) : State := (stageTwo x k (presetStep k s).state).state

theorem movedState_beside (x : AxisSet) (k : PerAxis Int) (s : State) :
    besideBlend (movedState x k s) = besideBlend s := stageTwo_presetStep_beside x k s

/-- What the limiter and the zone check leave of an axis. -/
def limitedDemand (x : AxisSet) (k : PerAxis Int) (s : State) (a : Axis) : Int :=
  (zoneCheck s (candidates k (movedState x k s))).candidates.get a

theorem computeDemands_demand (x y : AxisSet) (k : PerAxis Int) (s : State) (a : Axis) :
    (computeDemands x y k s).state.demand.get a =
      if AxisSet.has y a then
        { d1 := ((limitStage x k (movedState x k s)).state.bus.drives.get a).feedback
          d2 := ((limitStage x k (movedState x k s)).state.bus.drives.get a).feedback }
      else if AxisSet.has x a then { d1 := limitedDemand x k s a, d2 := (s.demand.get a).d1 }
      else s.demand.get a := by
  have hbeside := movedState_beside x k s
  obtain ⟨r, hr, _, hdemand⟩ := limitStage_spec x k (movedState x k s)
  have hd : r.demand = s.demand := hdemand.trans (congrArg Prod.fst hbeside)
  have hlim : (limitStage x k (movedState x k s)).state.demand.get a =
      if AxisSet.has x a then { d1 := limitedDemand x k s a, d2 := (s.demand.get a).d1 } else s.demand.get a := by
    rw [hr]
    simp only [writeDemands, PerAxis.get_ofFn, ← hd, zoneCheck_congr hbeside]
    rfl
  show ((releasedTracking y k (limitStage x k (movedState x k s)).state).demand).get a = _
  rw [releasedTracking_eq, PerAxis.get_ofFn, hlim]

theorem computeDemands_base {x y : AxisSet} {a : Axis} (k : PerAxis Int) (s : State)
    (hx : AxisSet.has x a = true) (hy : AxisSet.has y a = false) :
    ((computeDemands x y k s).state.blend.get a).base = limitedDemand x k s a - k.get a := by
  obtain ⟨r, hr, _, _⟩ := limitStage_spec x k (movedState x k s)
  show ((releasedTracking y k (limitStage x k (movedState x k s)).state).blend.get a).base = _
  rw [releasedTracking_eq, PerAxis.get_ofFn, if_neg (by rw [hy]; decide), hr]
  simp only [writeDemands, PerAxis.get_ofFn, hx, if_true, zoneCheck_congr (movedState_beside x k s)]
  rfl

theorem computeDemands_settings (x y : AxisSet) (k : PerAxis Int) (s : State) :
    (computeDemands x y k s).state.settings = s.settings := by
  obtain ⟨r, hr, hsettings, _⟩ := limitStage_spec x k (movedState x k s)
  show (limitStage x k (movedState x k s)).state.settings = _
  rw [hr]
  show r.settings = _
  rw [hsettings]
  exact congrArg (fun b => b.2.1) (movedState_beside x k s)

/-- A raise leaves what the drives feed back. -/
theorem feedback_stopLaw (a : Axis) (v : Int) : StopLaw fun s => (s.bus.drives.get a).feedback = v := by
  have hrelease : ∀ s, ((releaseDrives s).bus.drives.get a).feedback = (s.bus.drives.get a).feedback := fun s => by
    rw [releaseDrives_eq, PerAxis.get_ofFn]
  exact {
    queue := fun _ _ _ h => h
    blend := fun _ _ h => h
    releaseDrives := fun s h => (hrelease s).trans h
    stopping := fun _ _ h => h
    released := fun s h => (hrelease s).trans h
    cause := fun _ _ h => h
    escalation := fun _ _ h => h
    record := fun src info s h => by rw [raiseRecord_bus]; exact h }

theorem limitStage_feedback (x : AxisSet) (k : PerAxis Int) (s : State) (a : Axis) :
    ((limitStage x k s).state.bus.drives.get a).feedback = (s.bus.drives.get a).feedback := by
  have hraise : ∀ src info s, ((raise src info s).state.bus.drives.get a).feedback = (s.bus.drives.get a).feedback :=
    fun src info s => (feedback_stopLaw a _).raise src info s rfl
  exact limitRaises_keep (g := fun s => (s.bus.drives.get a).feedback) hraise (fun _ _ _ => rfl) _
    (fun a => AxisSet.has (clampedSet k s) a) _ _

/-- What a fitted axis that is RELEASED shows after the stages. -/
theorem computeDemands_tracked {y : AxisSet} {a : Axis} (x : AxisSet) (k : PerAxis Int) (s : State)
    (hy : AxisSet.has y a = true) :
    (computeDemands x y k s).state.demand.get a =
        { d1 := (s.bus.drives.get a).feedback, d2 := (s.bus.drives.get a).feedback } ∧
      (∃ b : Blend, (computeDemands x y k s).state.blend.get a = { b with
        mode := .hold, trim := 0, weight := 0, base := (s.bus.drives.get a).feedback - k.get a }) ∧
      (computeDemands x y k s).state.clamped.get a = false := by
  have hfeedback : ((limitStage x k (movedState x k s)).state.bus.drives.get a).feedback =
      (s.bus.drives.get a).feedback := by
    rw [limitStage_feedback]
    exact congrArg (fun b => (b.2.2.2.drives.get a).feedback) (movedState_beside x k s)
  refine ⟨?_, ⟨(limitStage x k (movedState x k s)).state.blend.get a, ?_⟩, ?_⟩
  · rw [computeDemands_demand, if_pos hy, hfeedback]
  · show (releasedTracking y k (limitStage x k (movedState x k s)).state).blend.get a = _
    rw [releasedTracking_eq, PerAxis.get_ofFn, if_pos hy, hfeedback]
  · show (releasedTracking y k (limitStage x k (movedState x k s)).state).clamped.get a = _
    rw [releasedTracking_eq, PerAxis.get_ofFn, if_pos hy]

/-- A driven axis is not tracked. -/
theorem not_tracked_of_driven {s : State} {a : Axis} (h : isDriven s a) : AxisSet.has (trackedSet s) a = false := by
  refine Bool.eq_false_iff.2 fun ht => ?_
  rw [isTracked_iff, h.2] at ht
  cases ht.2

/-- The state behind the six stages. -/
def stagesState (s : State) : State :=
  (computeDemands (drivenSet s) (trackedSet s) (PerAxis.ofFn (couplingOffset s)) s).state

/-- What the rest of a frame computation leaves of what the stages wrote. -/
theorem frameComputation_fields (s : State) :
    (frameComputation s).state.demand = (stagesState s).demand ∧
      (frameComputation s).state.blend = (stagesState s).blend ∧
      (frameComputation s).state.clamped = (stagesState s).clamped ∧
      (frameComputation s).state.settings = (stagesState s).settings ∧
      (frameComputation s).state.armed = (armZones (stagesState s)).armed := by
  obtain ⟨q, po, b, f, hframe⟩ := frameComputation_spec s
  change _ = { armZones (stagesState s) with queue := q, ports := po, bus := b, faults := f } at hframe
  rw [hframe]
  generalize stagesState s = u
  exact ⟨rfl, rfl, rfl, rfl, rfl⟩

/-- The demand of a driven axis after the frame computation. -/
theorem frameComputation_driven {s : State} {a : Axis} (h : isDriven s a) :
    (frameComputation s).state.demand.get a =
        { d1 := limitedDemand (drivenSet s) (PerAxis.ofFn (couplingOffset s)) s a, d2 := (s.demand.get a).d1 } ∧
      ((frameComputation s).state.blend.get a).base =
        limitedDemand (drivenSet s) (PerAxis.ofFn (couplingOffset s)) s a - couplingOffset s a := by
  obtain ⟨hdemand, hblend, _, _, _⟩ := frameComputation_fields s
  have hx := isDriven_iff.2 h
  have hy := not_tracked_of_driven h
  refine ⟨?_, ?_⟩
  · rw [hdemand, stagesState, computeDemands_demand, if_neg (by rw [hy]; decide), if_pos hx]
  · rw [hblend, stagesState, computeDemands_base _ s hx hy, PerAxis.get_ofFn]

theorem frameComputation_settings (s : State) : (frameComputation s).state.settings = s.settings := by
  obtain ⟨_, _, _, hsettings, _⟩ := frameComputation_fields s
  rw [hsettings, stagesState, computeDemands_settings]

/-- The limiter keeps the two laws of the demand history. -/
theorem frameComputation_lawful {s : State} {a : Axis} (h : isDriven s a) (hl : demandLawful s a) :
    demandLawful (frameComputation s).state a := by
  obtain ⟨hwithin, hvel⟩ := hl
  obtain ⟨hlo, hhi⟩ := within_iff.1 hwithin
  unfold demandLawful d1Of
  rw [(frameComputation_driven h).1, frameComputation_settings]
  have hmoved := movedState_beside (drivenSet s) (PerAxis.ofFn (couplingOffset s)) s
  simp only [besideBlend, Prod.mk.injEq] at hmoved
  obtain ⟨hdemand, hsettings, _, _⟩ := hmoved
  unfold limitedDemand
  rcases zoneCheck_candidate s
    (candidates (PerAxis.ofFn (couplingOffset s)) (movedState (drivenSet s) (PerAxis.ofFn (couplingOffset s)) s)) a with
    hc | hc <;> rw [hc]
  · obtain ⟨_, _, hlimits⟩ := limiterClampsInFourSteps.1 (s.settings.limits.get a) (s.demand.get a)
      (rawDemand (PerAxis.ofFn (couplingOffset s)) (movedState (drivenSet s) (PerAxis.ofFn (couplingOffset s)) s) a)
    obtain ⟨h1, h2, _, h4⟩ := hlimits hlo hhi
    rw [candidates, PerAxis.get_ofFn, hdemand, hsettings]
    exact ⟨within_iff.2 ⟨h1, h2⟩, h4⟩
  · exact ⟨hwithin, by unfold d1Of; simp⟩

theorem armZones_armed {s : State} {n : Fin 8} : (armZones s).armed[n] = true ↔ s.armed[n] = true ∨
    (s.settings.zones[n].enabled = true ∧ ∃ a, AxisSet.has s.settings.zones[n].axes a = true ∧
      (d1Of s a < (s.settings.zones[n].bounds.get a).lo ∨ (s.settings.zones[n].bounds.get a).hi < d1Of s a)) := by
  rw [← outside_iff, armZones, eachZone_get, Bool.or_eq_true, Bool.and_eq_true]

/-- Settles O19: the stages write the demands of the fitted axes, each from the state the stages before it left. -/
theorem frameComputationWritesLawfulDemands : Obligations.FrameComputationWritesLawfulDemands := by
  refine ⟨stageTwo_modes, fun s a => ⟨couplingOffset_eq s a, isDriven_iff, isTracked_iff⟩, fun s a h => ?driven,
    fun s a => ⟨fun hf he => ?released, fun hf => ?unfitted⟩, fun s a h hl => frameComputation_lawful h hl,
    fun s n => ?arms⟩
  case driven =>
    intro k moved c d t
    have hd : d = limitedDemand (drivenSet s) k s a := by
      have hc : c = candidates k moved := by
        have hmoved := movedState_beside (drivenSet s) k s
        simp only [besideBlend, Prod.mk.injEq] at hmoved
        obtain ⟨hdemand, hsettings, _, _⟩ := hmoved
        refine PerAxis.ext_get fun b => ?_
        show PerAxis.get (PerAxis.ofFn _) b = PerAxis.get (PerAxis.ofFn _) b
        rw [PerAxis.get_ofFn, PerAxis.get_ofFn, rawDemand, PerAxis.get_ofFn]
        rw [show moved.settings = s.settings from hsettings, show moved.demand = s.demand from hdemand]
      show (zoneCheck s c).candidates.get a = _
      rw [hc]
      rfl
    rw [hd]
    exact frameComputation_driven h
  case released =>
    obtain ⟨hdemand', hblend', hclamped', _, _⟩ := frameComputation_fields s
    obtain ⟨hdemand, ⟨b, hblend⟩, hclamped⟩ := computeDemands_tracked (drivenSet s) (PerAxis.ofFn (couplingOffset s)) s
      (isTracked_iff.2 ⟨hf, he⟩)
    simp only [hdemand', hblend', hclamped', stagesState, hdemand, hblend, hclamped, PerAxis.get_ofFn, and_self]
  case unfitted =>
    obtain ⟨hdemand, _⟩ := frameComputation_fields s
    have hx : ¬ AxisSet.has (drivenSet s) a = true := fun h => by rw [(isDriven_iff.1 h).1] at hf; cases hf
    have hy : ¬ AxisSet.has (trackedSet s) a = true := fun h => by rw [(isTracked_iff.1 h).1] at hf; cases hf
    rw [hdemand, stagesState, computeDemands_demand, if_neg hy, if_neg hx]
  case arms =>
    intro t henabled hout
    obtain ⟨hdemand, _, _, _, harmed⟩ := frameComputation_fields s
    have hd : ∀ a, d1Of t a = d1Of (stagesState s) a := fun a => by unfold d1Of; rw [hdemand]
    simp only [hd] at hout
    have hsettings : (stagesState s).settings = s.settings := computeDemands_settings _ _ _ s
    have harms : (armZones (stagesState s)).armed[n] = true :=
      armZones_armed.2 (.inr (by rw [hsettings]; exact ⟨henabled, hout⟩))
    rw [← harmed] at harms
    exact harms

/-! ## What follows stage 6 -/

theorem stoppedOutcome_eq : stoppedOutcome = fun m => if m.stopOutcome = some .fault then .fault else .aborted := by
  funext m
  unfold stoppedOutcome
  cases m.stopOutcome with
  | none => rfl
  | some o => cases o <;> rfl

theorem safeStopEnds_iff {s : State} :
    (s.faults.safeStop == .stopping && (AxisSet.members (drivenSet s)).all (atRest s)) = true ↔
      s.faults.safeStop = .stopping ∧ ∀ a, isDriven s a → (s.demand.get a).d1 = (s.demand.get a).d2 := by
  simp only [Bool.and_eq_true, beq_iff_eq, members_all, isDriven_iff, atRest]

/-- Settles O20: what follows stage 6 is a removal, a write of the armed flags, an entry into RELEASED and the
countdowns. -/
theorem restTestsAndReportsFollowStageSix : Obligations.RestTestsAndReportsFollowStageSix := by
  refine ⟨fun s => ?computation, fun x y k s => ⟨computeDemands_eq x y k s, releasedTracking_eq y k s⟩, fun s => ?rest,
    fun s => ⟨⟨_, rfl⟩, fun n => armZones_armed, fun he => ?ended, fun he => ?goesOn⟩,
    fun m s => ⟨fun hi => ?off, fun n hi => ⟨fun hc => ?counts, fun hc => ?reports⟩⟩⟩
  case computation =>
    unfold frameComputation
    simp only [Emit.andThen, quiet_state, quiet_posts, List.append_nil, List.append_assoc]
    rfl
  case rest =>
    intro still ended
    rw [restTest, removeMoves_eq, stoppedOutcome_eq]
    rfl
  case ended => rw [safeStopRest, safeStopEnds_iff.2 he, whenever_true, enterReleased_eq]
  case goesOn =>
    rw [safeStopRest, Bool.eq_false_iff.2 (mt safeStopEnds_iff.1 he)]
    rfl
  case off => rw [countReport, hi]; rfl
  case counts => rw [countReport, hi]; exact if_neg (Nat.not_le.2 hc)
  case reports => rw [countReport, hi]; exact if_pos hc

end Sys2Proof.Machine
end

section
/-! PROOFS. The requests of the authority table, ownership changes and the expiry of waits (O22, O23, O25). -/

namespace Sys2Proof.Machine

/-! ## One axis -/

/-- A verdict says that the owner changed where its record has another owner, and then clears the yield flag. -/
def Verdict.Telling (r : Authority) (v : Verdict) : Prop :=
  (v.changed = true ↔ v.record.owner ≠ r.owner) ∧ (v.changed = true → v.record.yielding = false)

theorem Verdict.Telling.of_keep {o : AxisOutcome} {r r' : Authority} (h : r'.owner = r.owner) :
    (Verdict.keep o r').Telling r := ⟨iff_of_false Bool.false_ne_true (Classical.not_not.2 h), fun h => by cases h⟩

theorem Verdict.Telling.of_change {v : Verdict} {r : Authority} (hc : v.changed = true) (ho : v.record.owner ≠ r.owner)
    (hy : v.record.yielding = false) : v.Telling r := ⟨iff_of_true hc ho, fun _ => hy⟩

theorem claimVerdict_telling (now : Nat) (m : Master) (wait : Nat) (r : Authority) :
    (claimVerdict now m wait r).Telling r := by
  unfold claimVerdict
  split
  · rename_i ho
    exact .of_change rfl (by rw [ho]; exact Option.some_ne_none m) rfl
  · rename_i o ho
    split
    · exact .of_keep rfl
    · rename_i hne
      split
      · exact .of_change rfl (by rw [ho]; exact fun h => hne (Option.some.inj h).symm) rfl
      · split
        · exact .of_keep rfl
        · split
          · exact .of_keep rfl
          · exact .of_keep rfl

/-- A waiting list's head is not the owner. -/
theorem passVerdict_telling {head : WaitEntry} {l : List WaitEntry} {r : Authority} (taken : Bool) (h : r.lawful)
    (hw : r.waiting = head :: l) : (passVerdict head taken r).Telling r := by
  obtain ⟨_, _, howner, _⟩ := h
  exact .of_change rfl (Ne.symm (howner head (by rw [hw]; exact List.mem_cons_self))) rfl

theorem releaseVerdict_telling (m : Master) (r : Authority) (h : r.lawful) : (releaseVerdict m r).Telling r := by
  unfold releaseVerdict
  split
  · rename_i ho
    split
    · exact .of_change rfl (by rw [ho]; exact (Option.some_ne_none m).symm) rfl
    · exact passVerdict_telling _ h ‹_›
  · exact .of_keep rfl

theorem yieldVerdict_telling (m : Master) (on : Bool) (r : Authority) (h : r.lawful) :
    (yieldVerdict m on r).Telling r := by
  unfold yieldVerdict
  split
  · split
    · split
      · exact .of_keep rfl
      · exact passVerdict_telling _ h ‹_›
    · exact .of_keep rfl
  · exact .of_keep rfl

theorem seizeVerdict_telling (m : Master) (stale : Master → Bool) (r : Authority) :
    (seizeVerdict m stale r).Telling r := by
  unfold seizeVerdict
  split
  · rename_i ho
    exact .of_change rfl (by rw [ho]; exact Option.some_ne_none m) rfl
  · rename_i o ho
    split
    · exact .of_keep rfl
    · rename_i hne
      split
      · exact .of_change rfl (by rw [ho]; exact fun h => hne (Option.some.inj h).symm) rfl
      · exact .of_keep rfl

/-! ## The four requests that may change an owner -/

/-- What CLAIM, RELEASE, YIELD and SEIZE judge of an axis. -/
def ownershipVerdict : Instr → State → Axis → Verdict
  | .claim h _ w, s, a => claimVerdict s.timebase.ms h.link w (s.authority.get a)
  | .release h _, s, a => releaseVerdict h.link (s.authority.get a)
  | .yield h _ n, s, a => yieldVerdict h.link ((flagOf n).getD false) (s.authority.get a)
  | .seize h _, s, a => seizeVerdict h.link (fun o => (s.joysticks.get o).stale == .stale) (s.authority.get a)
  | _, s, a => .keep .notOwner (s.authority.get a)

/-- The axes they name. -/
def ownershipAxes : Instr → AxisSet
  | .claim _ x _ | .release _ x | .yield _ x _ | .seize _ x => x
  | _ => 0#8

/-- Whether their argument is in its range. -/
def ownershipArgument : Instr → Bool
  | .claim _ _ w => decide (w ≤ 255)
  | .yield _ _ n => (flagOf n).isSome
  | _ => true

theorem ownershipRequest_body {i : Instr} (hi : changesOwners i = true) (s : State) :
    requestBody i s = authorityRequest (ownershipAxes i) (ownershipArgument i) (ownershipVerdict i) s := by
  cases i <;> first | rfl | cases hi

theorem ownershipVerdict_telling {i : Instr} {s : State} (hi : changesOwners i = true) (hs : authorityLaw s) (a : Axis) :
    (ownershipVerdict i s a).Telling (s.authority.get a) := by
  cases i
  case claim => exact claimVerdict_telling _ _ _ _
  case release => exact releaseVerdict_telling _ _ (hs a)
  case yield => exact yieldVerdict_telling _ _ _ (hs a)
  case seize => exact seizeVerdict_telling _ _ _
  all_goals cases hi

theorem header_of_changesOwners {i : Instr} (hi : changesOwners i = true) :
    ∃ h, requestHeader i = some h ∧ isReset i = false := by
  cases i
  case claim h _ _ | release h _ | yield h _ _ | seize h _ => exact ⟨h, rfl, rfl⟩
  all_goals cases hi

theorem authorityRequest_cases (x : AxisSet) (b : Bool) (v : State → Axis → Verdict) (s : State) :
    (∃ c, authorityRequest x b v s = refuse s c) ∨ authorityRequest x b v s = authorityEvent x (v s) s := by
  unfold authorityRequest
  split
  · exact .inl ⟨_, rfl⟩
  · split
    · exact .inr rfl
    · exact .inl ⟨_, rfl⟩

/-- Placing notices rewrites the ports alone. -/
theorem placeNotices_eq (posts : List Post) (s : State) :
    placeNotices posts s = { s with ports := (placeNotices posts s).ports } :=
  placeNotices_keeps (fun u => { u with ports := (placeNotices posts s).ports }) (fun _ _ => rfl) posts s

theorem answer_eq (h : Header) (r : Response) : answer h r = { r.state with ports := (answer h r).ports } :=
  placeNotices_eq _ _

/-- The state an ownership request leaves, but for the ports. -/
theorem authorityEvent_state (x : AxisSet) (v : Axis → Verdict) (s : State) : (authorityEvent x v s).state =
    { s with
      authority := (recordVerdicts x v s).authority
      blend := mapAt (changedSet x v) Blend.toHold s.blend
      queue := (withdraw (changedSet x v) s).state.queue } := rfl

theorem recordVerdicts_get (x : AxisSet) (v : Axis → Verdict) (s : State) (a : Axis) :
    (recordVerdicts x v s).authority.get a = if AxisSet.has x a then (v a).record else s.authority.get a :=
  PerAxis.get_ofFn _ _

/-- The axes that a request's verdicts change are those whose recorded owner is another. -/
theorem changedSet_iff {x : AxisSet} {v : Axis → Verdict} {s : State} (hv : ∀ a, (v a).Telling (s.authority.get a))
    (a : Axis) : ((recordVerdicts x v s).authority.get a).owner ≠ ownerOf s a ↔ AxisSet.has (changedSet x v) a = true := by
  rw [recordVerdicts_get, changedSet, AxisSet.has_ofTest, Bool.and_eq_true, (hv a).1]
  split
  · exact (and_iff_right ‹_›).symm
  · exact iff_of_false (Classical.not_not.2 rfl) fun h => absurd h.1 ‹_›

/-- Settles O22: the verdicts say which owners change, and the event withdraws and holds those axes. -/
theorem ownershipChangesHoldAndWithdraw : Obligations.OwnershipChangesHoldAndWithdraw := by
  intro i s s0 hi ht hlaw hne
  obtain ⟨h, hh, hr⟩ := header_of_changesOwners hi
  have hexec := exec_taken hh hr ht
  rw [ownershipRequest_body hi] at hexec
  rcases authorityRequest_cases (ownershipAxes i) (ownershipArgument i) (ownershipVerdict i) s0 with ⟨c, he⟩ | he
  · rw [he] at hexec
    refine ⟨s0.authority, s0.blend, s0.queue, _, hexec, fun a ha => absurd rfl ha, fun _ _ => rfl, ?_⟩
    have hstay := withdraw_movesWithout (x := 0#8)
      (leaves := fun a => (s0.authority.get a).owner ≠ ownerOf s0 a) s0 fun a =>
        iff_of_false (Classical.not_not.2 rfl) (by rw [AxisSet.has_zero]; decide)
    rwa [withdraw_zero hne] at hstay
  · have hv := fun a => ownershipVerdict_telling hi hlaw a
    rw [he, answer_eq, authorityEvent_state] at hexec
    refine ⟨_, _, _, _, hexec, fun a ha => ?_, fun a ha => ?_, withdraw_movesWithout _ (changedSet_iff hv)⟩
    · have hc := (changedSet_iff hv a).1 ha
      rw [mapAt_get, if_pos hc, recordVerdicts_get]
      rw [changedSet, AxisSet.has_ofTest, Bool.and_eq_true] at hc
      rw [if_pos hc.1]
      exact ⟨rfl, rfl, rfl, rfl, (hv a).2 hc.2⟩
    · have hc : ¬ AxisSet.has _ a = true := mt (changedSet_iff hv a).2 (Classical.not_not.2 ha)
      rw [mapAt_get, if_neg hc]

/-! ## The tables -/

theorem authorityRequest_refuses {x : AxisSet} {b : Bool} {v : State → Axis → Verdict} {s : State} {c : RefusalCode}
    (hc : axisSetCheck s x = some c) : authorityRequest x b v s = refuse s c := by
  unfold authorityRequest
  rw [hc]

theorem authorityRequest_badArgument {x : AxisSet} {v : State → Axis → Verdict} {s : State} (hx : axesPass s x) :
    authorityRequest x false v s = refuse s .badArgument := by
  unfold authorityRequest
  rw [axisSetCheck_pass hx.1 hx.2]
  rfl

theorem flagOf_none {n : Nat} (h : 1 < n) : flagOf n = none := by
  unfold flagOf
  split
  · omega
  · omega
  · rfl

theorem authorityRequests_refuse : authorityRequestsRefuseWhole := by
  intro h x n s s0
  refine ⟨fun i hi ht => ?_, fun hx ht hn => ?_, fun hx ht hn => ?_⟩
  · have hbody : requestHeader i = some h ∧ isReset i = false ∧
        ∃ b v, requestBody i s0 = authorityRequest x b v s0 := by
      simp only [List.mem_cons, List.not_mem_nil, or_false] at hi
      rcases hi with rfl | rfl | rfl | rfl | rfl
      · exact ⟨rfl, rfl, _, _, ownershipRequest_body (i := .claim h x n) rfl s0⟩
      · exact ⟨rfl, rfl, _, _, ownershipRequest_body (i := .release h x) rfl s0⟩
      · exact ⟨rfl, rfl, _, _, ownershipRequest_body (i := .yield h x n) rfl s0⟩
      · exact ⟨rfl, rfl, _, _, ownershipRequest_body (i := .seize h x) rfl s0⟩
      · exact ⟨rfl, rfl, true, fun s a => withdrawWaitVerdict h.link (s.authority.get a), rfl⟩
    obtain ⟨hh, hr, b, v, hb⟩ := hbody
    exact ⟨fun hf => exec_refuses hh hr ht (hb.trans (authorityRequest_refuses (axisSetCheck_badAxis hf))),
      fun he => exec_refuses hh hr ht (hb.trans (authorityRequest_refuses (axisSetCheck_of_empty he)))⟩
  · have hrange : ownershipArgument (.claim h x n) = false := decide_eq_false (Nat.not_le.2 hn)
    refine exec_refuses rfl rfl ht ((ownershipRequest_body (i := .claim h x n) rfl s0).trans ?_)
    rw [hrange]
    exact authorityRequest_badArgument hx
  · have hrange : ownershipArgument (.yield h x n) = false := by rw [ownershipArgument, flagOf_none hn]; rfl
    refine exec_refuses rfl rfl ht ((ownershipRequest_body (i := .yield h x n) rfl s0).trans ?_)
    rw [hrange]
    exact authorityRequest_badArgument hx

/-- The reply ends the requester's transmit queue, with the notices behind it. -/
theorem answer_tx (h : Header) (r : Response) : ∃ l : List LinkFrame, l.all LinkFrame.isNotice = true ∧
    ((answer h r).ports.get h.link).tx = (r.state.ports.get h.link).tx ++ LinkFrame.reply h.tag r.reply :: l := by
  obtain ⟨l, hl, hn⟩ := placeNotices_tx r.posts (queueReply h r.reply r.state) h.link
  refine ⟨l, hn, ?_⟩
  show ((placeNotices _ _).ports.get h.link).tx = _
  rw [hl]
  unfold queueReply
  simp only [State.setPort_ports, PerMaster.get_set_same, List.append_assoc, List.singleton_append]

/-- A request whose axes and argument pass answers each named axis with its verdict, and writes its record. -/
theorem ownershipRequest_judges {i : Instr} {h : Header} {s s0 : State} (hi : changesOwners i = true)
    (hh : requestHeader i = some h) (hr : isReset i = false) (ht : taken i s s0) (hx : axesPass s0 (ownershipAxes i))
    (ha : ownershipArgument i = true) : ∃ (t : State) (o : Axis → AxisOutcome), exec i s = .next t ∧
      answersPerAxis h (ownershipAxes i) o s0 t ∧
      ∀ a, (AxisSet.has (ownershipAxes i) a = true →
          o a = (ownershipVerdict i s0 a).outcome ∧ t.authority.get a = (ownershipVerdict i s0 a).record) ∧
        (AxisSet.has (ownershipAxes i) a = false → t.authority.get a = s0.authority.get a) := by
  have hexec := exec_taken hh hr ht
  rw [ownershipRequest_body hi, ha, authorityRequest_pass hx] at hexec
  refine ⟨_, fun a => (ownershipVerdict i s0 a).outcome, hexec, answer_tx h _, fun a => ?_⟩
  have hget : (answer h (authorityEvent (ownershipAxes i) (ownershipVerdict i s0) s0)).authority.get a =
      if AxisSet.has (ownershipAxes i) a then (ownershipVerdict i s0 a).record else s0.authority.get a := by
    rw [answer_eq]
    exact recordVerdicts_get _ _ _ _
  rw [hget]
  exact ⟨fun hx => ⟨rfl, if_pos hx⟩, fun hx => if_neg (by rw [hx]; decide)⟩

/-- The place of the first entry of a master. -/
theorem placeOf_first {m : Master} {l : List WaitEntry} {n : Nat} {e : WaitEntry} (hn : l[n]? = some e)
    (he : e.waiter = m) (hfirst : ∀ k < n, ∀ f, l[k]? = some f → f.waiter ≠ m) :
    placeOf m l = some (n + 1, e.deadline) := by
  obtain ⟨hlt, hget⟩ := List.getElem?_eq_some_iff.1 hn
  have hothers : ∀ j (hj : j < n), (l[j].waiter == m) = false := fun j hj =>
    beq_eq_false_iff_ne.2 (hfirst j hj _ (List.getElem?_eq_getElem _))
  have hfind : l.find? (fun e => e.waiter == m) = some e :=
    List.find?_eq_some_iff_getElem.2 ⟨beq_iff_eq.2 he, n, hlt, hget, fun j hj => by rw [hothers j hj]; rfl⟩
  have hidx : l.findIdx (fun e => e.waiter == m) = n :=
    (List.findIdx_eq hlt).2 ⟨by rw [hget]; exact beq_iff_eq.2 he, hothers⟩
  rw [placeOf, hfind, hidx]
  rfl

theorem placeOf_absent {m : Master} {l : List WaitEntry} (h : ∀ e ∈ l, e.waiter ≠ m) : placeOf m l = none := by
  have hfind : l.find? (fun e => e.waiter == m) = none :=
    List.find?_eq_none.2 fun e he => by simpa using h e he
  rw [placeOf, hfind]
  rfl

theorem claimVerdict_table (now : Nat) (m : Master) (w : Nat) (r : Authority) :
    claimTable now m w r (claimVerdict now m w r).outcome (claimVerdict now m w r).record := by
  unfold claimVerdict
  refine ⟨fun ho => ?_, fun ho => ?_, fun q ho hq => ⟨fun hy => ?_, fun hy => ⟨fun n e hn he hfirst => ?_,
    fun hnone => ⟨fun hw => ?_, fun hw => ?_⟩⟩⟩⟩
  · rw [ho]
    exact ⟨rfl, rfl⟩
  · rw [ho]
    simp
  · rw [ho]
    simp only [if_neg hq, hy, if_true]
    exact ⟨trivial, rfl⟩
  · rw [ho]
    simp only [if_neg hq, hy, placeOf_first hn he hfirst]
    exact ⟨rfl, rfl⟩
  · rw [ho]
    simp only [if_neg hq, hy, placeOf_absent hnone, if_pos hw]
    exact ⟨rfl, rfl⟩
  · rw [ho]
    simp only [if_neg hq, hy, placeOf_absent hnone, if_neg (Nat.pos_iff_ne_zero.1 hw)]
    exact ⟨rfl, rfl⟩

theorem claim_judges : claimJudgesEachAxis := by
  intro h x w s s0 ht hx hw
  obtain ⟨t, o, hexec, hanswers, hrecords⟩ := ownershipRequest_judges (i := .claim h x w) rfl rfl rfl ht hx
    (decide_eq_true hw)
  refine ⟨t, o, hexec, hanswers, fun a => ⟨fun ha => ?_, (hrecords a).2⟩⟩
  obtain ⟨ho, hr⟩ := (hrecords a).1 ha
  rw [ho, hr]
  exact claimVerdict_table _ _ _ _

theorem releaseVerdict_notOwner {m : Master} {r : Authority} (ho : r.owner ≠ some m) :
    releaseVerdict m r = .keep .notOwner r := if_neg ho

theorem releaseVerdict_released {m : Master} {r : Authority} (ho : r.owner = some m) (hw : r.waiting = []) :
    releaseVerdict m r = { outcome := .released, record := { owner := none, yielding := false, waiting := [] }
                           changed := true, granted := false, taken := false } := by
  unfold releaseVerdict
  rw [if_pos ho, hw]

theorem releaseVerdict_passed {m : Master} {r : Authority} {e : WaitEntry} {l : List WaitEntry}
    (ho : r.owner = some m) (hw : r.waiting = e :: l) : releaseVerdict m r = passVerdict e false r := by
  unfold releaseVerdict
  rw [if_pos ho, hw]

theorem yieldVerdict_notOwner {m : Master} {on : Bool} {r : Authority} (ho : r.owner ≠ some m) :
    yieldVerdict m on r = .keep .notOwner r := if_neg ho

theorem yieldVerdict_on {m : Master} {r : Authority} (ho : r.owner = some m) (hw : r.waiting = []) :
    yieldVerdict m true r = .keep .yieldOn { r with yielding := true } := by
  unfold yieldVerdict
  rw [if_pos ho, if_pos rfl]
  split
  · rfl
  · rename_i hc
    rw [hw] at hc
    cases hc

theorem yieldVerdict_passed {m : Master} {r : Authority} {e : WaitEntry} {l : List WaitEntry}
    (ho : r.owner = some m) (hw : r.waiting = e :: l) : yieldVerdict m true r = passVerdict e true r := by
  unfold yieldVerdict
  rw [if_pos ho, if_pos rfl, hw]

theorem yieldVerdict_off {m : Master} {r : Authority} (ho : r.owner = some m) :
    yieldVerdict m false r = .keep .yieldOff { r with yielding := false } := by
  unfold yieldVerdict
  rw [if_pos ho, if_neg Bool.false_ne_true]

theorem seizeVerdict_free {m : Master} {stale : Master → Bool} {r : Authority} (ho : r.owner = none) :
    seizeVerdict m stale r =
      { outcome := .seized, record := r.giveTo m, changed := true, granted := false, taken := false } := by
  unfold seizeVerdict
  rw [ho]

theorem seizeVerdict_own {m : Master} {stale : Master → Bool} {r : Authority} (ho : r.owner = some m) :
    seizeVerdict m stale r = .keep .owned r := by
  unfold seizeVerdict
  rw [ho]
  exact if_pos rfl

theorem seizeVerdict_stale {m q : Master} {stale : Master → Bool} {r : Authority} (ho : r.owner = some q) (hq : q ≠ m)
    (hs : stale q = true) : seizeVerdict m stale r =
      { outcome := .seized, record := r.giveTo m, changed := true, granted := false, taken := true } := by
  unfold seizeVerdict
  rw [ho]
  exact (if_neg hq).trans (if_pos hs)

theorem seizeVerdict_held {m q : Master} {stale : Master → Bool} {r : Authority} (ho : r.owner = some q) (hq : q ≠ m)
    (hs : stale q = false) : seizeVerdict m stale r = .keep (.held (some q)) r := by
  unfold seizeVerdict
  rw [ho]
  exact (if_neg hq).trans (if_neg (by rw [hs]; decide))

theorem releaseYieldAndSeize_judge : releaseYieldAndSeizeJudgeEachAxis := by
  refine ⟨fun h x s s0 ht hx => ?release, fun h x n s s0 ht hx hn => ?yield, fun h x s s0 ht hx => ?seize⟩
  case release =>
    obtain ⟨t, o, hexec, hanswers, hrecords⟩ := ownershipRequest_judges (i := .release h x) rfl rfl rfl ht hx rfl
    refine ⟨t, o, hexec, hanswers, fun a => ⟨fun ha => ?_, (hrecords a).2⟩⟩
    obtain ⟨hout, hrec⟩ := (hrecords a).1 ha
    rw [hout, hrec, ownershipVerdict]
    exact ⟨fun ho => by rw [releaseVerdict_notOwner ho]; exact ⟨rfl, rfl⟩,
      fun ho hw => by rw [releaseVerdict_released ho hw]; exact ⟨rfl, rfl⟩,
      fun e l ho hw => by rw [releaseVerdict_passed ho hw]; exact ⟨rfl, rfl⟩⟩
  case yield =>
    have hflag := flagOf_of_le hn
    obtain ⟨t, o, hexec, hanswers, hrecords⟩ := ownershipRequest_judges (i := .yield h x n) rfl rfl rfl ht hx
      (by rw [ownershipArgument, hflag]; rfl)
    refine ⟨t, o, hexec, hanswers, fun a => ⟨fun ha => ?_, (hrecords a).2⟩⟩
    obtain ⟨hout, hrec⟩ := (hrecords a).1 ha
    rw [hout, hrec, ownershipVerdict, hflag, Option.getD_some]
    refine ⟨fun ho => ?_, fun ho h1 hw => ?_, fun e l ho h1 hw => ?_, fun ho h0 => ?_⟩
    · rw [yieldVerdict_notOwner ho]; exact ⟨rfl, rfl⟩
    · rw [h1, beq_self_eq_true, yieldVerdict_on ho hw]; exact ⟨rfl, rfl⟩
    · rw [h1, beq_self_eq_true, yieldVerdict_passed ho hw]; exact ⟨rfl, rfl⟩
    · rw [h0, show ((0 : Nat) == 1) = false from rfl, yieldVerdict_off ho]; exact ⟨rfl, rfl⟩
  case seize =>
    obtain ⟨t, o, hexec, hanswers, hrecords⟩ := ownershipRequest_judges (i := .seize h x) rfl rfl rfl ht hx rfl
    refine ⟨t, o, hexec, hanswers, fun a => ⟨fun ha => ?_, (hrecords a).2⟩⟩
    obtain ⟨hout, hrec⟩ := (hrecords a).1 ha
    rw [hout, hrec, ownershipVerdict]
    refine ⟨fun ho => ?_, fun ho => ?_, fun q ho hq hs => ?_, fun q ho hq hs => ?_⟩
    · rw [seizeVerdict_free ho]; exact ⟨rfl, rfl⟩
    · rw [seizeVerdict_own ho]; exact ⟨rfl, rfl⟩
    · rw [seizeVerdict_stale ho hq (by rw [hs]; rfl)]; exact ⟨rfl, rfl⟩
    · rw [seizeVerdict_held ho hq (by rw [hs]; rfl)]; exact ⟨rfl, rfl⟩

/-- Settles O23: the four requests judge by their verdicts, which are the rows of the tables. -/
theorem authorityRequestsJudgeEachAxis : Obligations.AuthorityRequestsJudgeEachAxis :=
  ⟨authorityRequests_refuse, claim_judges, releaseYieldAndSeize_judge⟩

/-! ## Wait expiry (R23, R28) -/

theorem mem_dueDeadlines {s : State} {m : Master} {d : Nat} : d ∈ dueDeadlines s m ↔
    ∃ a, ∃ e ∈ (s.authority.get a).waiting, e.waiter = m ∧ e.deadline = d ∧ d ≤ s.timebase.ms := by
  simp only [dueDeadlines, List.mem_flatMap, List.mem_map, List.mem_filter, Bool.and_eq_true, beq_iff_eq, reached,
    decide_eq_true_eq]
  constructor
  · rintro ⟨a, _, e, ⟨he, hw, ht⟩, rfl⟩
    exact ⟨a, e, he, hw, rfl, ht⟩
  · rintro ⟨a, e, he, hw, rfl, ht⟩
    exact ⟨a, Axis.mem_all a, e, ⟨he, hw, ht⟩, rfl⟩

/-- Settles O25: the earliest deadline is the least of those due. -/
theorem waitsExpireTogether : Obligations.WaitsExpireTogether := by
  intro dt m s s1 due
  have hexec : exec (.waitExpiry dt m) s = .next (waitExpiry m s1).settle := event_next _ _ _
  refine ⟨fun hnone => ?_, fun d hd hmin => ?_⟩
  · have hempty : (dueDeadlines s1 m).min? = none :=
      List.min?_eq_none_iff.2 (List.eq_nil_iff_forall_not_mem.2 fun d hd => hnone ⟨d, mem_dueDeadlines.1 hd⟩)
    rw [hexec, waitExpiry, hempty]
    rfl
  · have hleast : (dueDeadlines s1 m).min? = some d :=
      List.min?_eq_some_iff.2 ⟨mem_dueDeadlines.2 hd, fun d' hd' => hmin d' (mem_dueDeadlines.1 hd')⟩
    rw [waitExpiry, hleast] at hexec
    refine ⟨_, _, hexec, fun a => PerAxis.get_ofFn _ a, fun a o => ?_⟩
    simp only [List.mem_map, List.mem_filter, Axis.mem_all, true_and, List.any_eq_true, WaitEntry.isFor,
      Bool.and_eq_true, beq_iff_eq, Prod.mk.injEq]
    constructor
    · rintro ⟨b, hb, rfl, rfl⟩
      exact ⟨rfl, hb⟩
    · rintro ⟨rfl, ha⟩
      exact ⟨a, ha, rfl, rfl⟩

end Sys2Proof.Machine
end

section
/-! PROOFS. Who is told of an ownership change (O24). -/

namespace Sys2Proof.Machine

/-! ## What a verdict tells -/

/-- The new owner is told GRANTED where the axis was passed to it. -/
def Verdict.Grants (v : Verdict) : Prop :=
  ∀ m, (v.granted = true ∧ v.record.owner = some m) ↔ v.outcome = .passed (some m)

/-- The old owner is told TAKEN where a claim transferred the axis, a yield passed it, or a seizure took it. -/
def Verdict.Takes (yields : Prop) (r : Authority) (v : Verdict) : Prop :=
  ∀ m, (v.taken = true ∧ v.record.owner = some m) ↔ v.record.owner = some m ∧
    (v.outcome = .transferred ∨ (yields ∧ v.outcome = .passed (some m)) ∨ (v.outcome = .seized ∧ r.owner ≠ none))

section Told
variable {yields : Prop} (r : Authority)

theorem claimVerdict_told (now : Nat) (m : Master) (w : Nat) :
    (claimVerdict now m w r).Grants ∧ (claimVerdict now m w r).Takes yields r := by
  unfold claimVerdict
  repeat' split
  all_goals exact ⟨fun k => by simp [Verdict.keep], fun k => by simp [Verdict.keep]⟩

theorem passVerdict_told (head : WaitEntry) (taken : Bool) (hy : taken = true ↔ yields) :
    (passVerdict head taken r).Grants ∧ (passVerdict head taken r).Takes yields r := by
  refine ⟨fun k => ?_, fun k => ?_⟩
  · simp [passVerdict, Authority.giveTo]
  · simp only [passVerdict, Authority.giveTo, hy]
    simp

theorem releaseVerdict_told (hn : ¬ yields) (m : Master) :
    (releaseVerdict m r).Grants ∧ (releaseVerdict m r).Takes yields r := by
  unfold releaseVerdict
  split
  · split
    · exact ⟨fun k => by simp, fun k => by simp⟩
    · exact passVerdict_told r _ false (iff_of_false Bool.false_ne_true hn)
  · exact ⟨fun k => by simp [Verdict.keep], fun k => by simp [Verdict.keep]⟩

theorem yieldVerdict_told (hy : yields) (m : Master) (on : Bool) :
    (yieldVerdict m on r).Grants ∧ (yieldVerdict m on r).Takes yields r := by
  unfold yieldVerdict
  split
  · split
    · split
      · exact ⟨fun k => by simp [Verdict.keep], fun k => by simp [Verdict.keep]⟩
      · exact passVerdict_told r _ true (iff_of_true rfl hy)
    · exact ⟨fun k => by simp [Verdict.keep], fun k => by simp [Verdict.keep]⟩
  · exact ⟨fun k => by simp [Verdict.keep], fun k => by simp [Verdict.keep]⟩

theorem seizeVerdict_told (m : Master) (stale : Master → Bool) :
    (seizeVerdict m stale r).Grants ∧ (seizeVerdict m stale r).Takes yields r := by
  unfold seizeVerdict
  split
  · rename_i ho
    exact ⟨fun k => by simp, fun k => by simp [ho]⟩
  · rename_i o ho
    split
    · exact ⟨fun k => by simp [Verdict.keep], fun k => by simp [Verdict.keep]⟩
    · split
      · exact ⟨fun k => by simp, fun k => by simp [ho]⟩
      · exact ⟨fun k => by simp [Verdict.keep], fun k => by simp [Verdict.keep]⟩

end Told

/-! ## Grouped notices -/

/-- A set whose first axis in channel order is known. -/
theorem firstAxisNumber_eq {y : AxisSet} {a : Axis} (ha : AxisSet.has y a = true)
    (hfirst : ∀ b ∈ Axis.all.takeWhile fun b => b != a, AxisSet.has y b = false) : firstAxisNumber y = a.number := by
  have hdrop : ∃ rest, Axis.all.dropWhile (fun b => b != a) = a :: rest := by cases a <;> exact ⟨_, rfl⟩
  obtain ⟨rest, hrest⟩ := hdrop
  have hmembers : AxisSet.members y = a :: rest.filter (AxisSet.has y) := by
    unfold AxisSet.members
    rw [← List.takeWhile_append_dropWhile (l := Axis.all) (p := fun b => b != a), List.filter_append, hrest,
      List.filter_eq_nil_iff.2 fun b hb => by rw [hfirst b hb]; decide, List.nil_append, List.filter_cons_of_pos ha]
  rw [firstAxisNumber, hmembers]
  rfl

/-- Each grouped notice carries the axes of one new owner, in the channel order of the first of them. -/
theorem groupedPosts_sorted (dest : Master) (f : Axis → Option Master) (mk : AxisSet → Master → Notice) :
    (groupedPosts dest f mk).Pairwise fun p p' => ∃ y m y' m', p.notice = mk y m ∧ p'.notice = mk y' m' ∧
      firstAxisNumber y < firstAxisNumber y' := by
  have hpost : ∀ a p, (match f a with
      | none => none
      | some n =>
        if (Axis.all.takeWhile fun b => b != a).any fun b => f b == some n then none
        else some (⟨dest, mk (AxisSet.ofTest fun b => f b == some n) n⟩ : Post)) = some p →
      ∃ y m, p.notice = mk y m ∧ firstAxisNumber y = a.number := by
    intro a p hp
    split at hp
    · cases hp
    · rename_i n hn
      split at hp
      · cases hp
      · rename_i hfirst
        rw [← Option.some.inj hp]
        refine ⟨_, n, rfl, firstAxisNumber_eq (by simp [hn]) fun b hb => ?_⟩
        rw [AxisSet.has_ofTest]
        exact Bool.eq_false_iff.2 fun h => hfirst (List.any_eq_true.2 ⟨b, hb, h⟩)
  have hsorted : Axis.all.Pairwise fun a b => a.number < b.number := by decide
  refine List.pairwise_filterMap.2 (hsorted.imp fun {a b} hab p hp p' hp' => ?_)
  obtain ⟨y, m, hy, hfirst⟩ := hpost a p hp
  obtain ⟨y', m', hy', hfirst'⟩ := hpost b p' hp'
  exact ⟨y, m, y', m', hy, hy', by rw [hfirst, hfirst']; exact hab⟩

/-- A grouped notice with some axes and a new owner is sent where these are the axes that fall to it. -/
theorem mem_groupedPosts_iff {dest : Master} {f : Axis → Option Master} {mk : AxisSet → Master → Notice}
    (hmk : ∀ y m y' m', mk y m = mk y' m' → y = y' ∧ m = m') {y : AxisSet} {m : Master} :
    (⟨dest, mk y m⟩ : Post) ∈ groupedPosts dest f mk ↔ y ≠ 0#8 ∧ ∀ a, AxisSet.has y a = true ↔ f a = some m := by
  rw [mem_groupedPosts]
  constructor
  · rintro ⟨n, ⟨a, ha⟩, hp⟩
    obtain ⟨rfl, rfl⟩ := hmk _ _ _ _ (congrArg Post.notice hp)
    exact ⟨AxisSet.ne_zero_iff.2 ⟨a, by simp [ha]⟩, fun b => by simp⟩
  · rintro ⟨hy, hall⟩
    obtain ⟨a, ha⟩ := AxisSet.ne_zero_iff.1 hy
    refine ⟨m, ⟨a, (hall a).1 ha⟩, ?_⟩
    have hset : y = AxisSet.ofTest fun b => f b == some m := AxisSet.eq_of_has fun b => by
      rw [AxisSet.has_ofTest, Bool.eq_iff_iff, hall, beq_iff_eq]
    rw [← hset]

theorem groupedPosts_form {dest : Master} {f : Axis → Option Master} {mk : AxisSet → Master → Notice} {p : Post}
    (hp : p ∈ groupedPosts dest f mk) : p.dest = dest ∧ ∃ y m, p.notice = mk y m := by
  obtain ⟨n, _, rfl⟩ := mem_groupedPosts.1 hp
  exact ⟨rfl, _, n, rfl⟩

/-! ## The notices of the ownership changes -/

/-- The new owner that a recipient is told GRANTED of an axis. -/
def grantedOwner (x : AxisSet) (v : Axis → Verdict) (dest : Master) (a : Axis) : Option Master :=
  if AxisSet.has x a && (v a).granted && (dest == .supervisor || (v a).record.owner == some dest)
  then (v a).record.owner else none

/-- The new owner that a recipient is told TAKEN of an axis. -/
def takenOwner (s : State) (x : AxisSet) (v : Axis → Verdict) (dest : Master) (a : Axis) : Option Master :=
  if AxisSet.has x a && (v a).taken && (dest == .supervisor || ownerOf s a == some dest)
  then (v a).record.owner else none

theorem ownershipPosts_eq (s : State) (x : AxisSet) (v : Axis → Verdict) : ownershipPosts s x v =
    (linksInUse s).flatMap fun dest => groupedPosts dest (grantedOwner x v dest) .granted ++
      groupedPosts dest (takenOwner s x v dest) .taken := rfl

theorem grantedOwner_iff {x : AxisSet} {v : Axis → Verdict} {d m : Master} {a : Axis} (hv : (v a).Grants) :
    grantedOwner x v d a = some m ↔
      (AxisSet.has x a = true ∧ (v a).outcome = .passed (some m)) ∧ (d = .supervisor ∨ d = m) := by
  rw [← hv m, grantedOwner]
  split
  · rename_i hc
    simp only [Bool.and_eq_true, Bool.or_eq_true, beq_iff_eq] at hc
    obtain ⟨⟨hx, hg⟩, hd⟩ := hc
    refine ⟨fun ho => ⟨⟨hx, hg, ho⟩, hd.imp_right fun h => ?_⟩, fun h => h.1.2.2⟩
    rw [ho] at h
    exact (Option.some.inj h).symm
  · rename_i hc
    refine iff_of_false nofun fun ⟨⟨hx, hg, ho⟩, hd⟩ => hc ?_
    simp only [Bool.and_eq_true, Bool.or_eq_true, beq_iff_eq]
    exact ⟨⟨hx, hg⟩, hd.imp_right fun h => by rw [ho, h]⟩

theorem takenOwner_iff {s : State} {x : AxisSet} {v : Axis → Verdict} {d m : Master} {a : Axis} {yields : Prop}
    (hv : (v a).Takes yields (s.authority.get a)) : takenOwner s x v d a = some m ↔
      (AxisSet.has x a = true ∧ (v a).record.owner = some m ∧ ((v a).outcome = .transferred ∨
        (yields ∧ (v a).outcome = .passed (some m)) ∨ ((v a).outcome = .seized ∧ ownerOf s a ≠ none))) ∧
        (d = .supervisor ∨ ownerOf s a = some d) := by
  have hv' : _ ↔ (v a).record.owner = some m ∧ ((v a).outcome = .transferred ∨
    (yields ∧ (v a).outcome = .passed (some m)) ∨ ((v a).outcome = .seized ∧ ownerOf s a ≠ none)) := hv m
  rw [← hv', takenOwner]
  split
  · rename_i hc
    simp only [Bool.and_eq_true, Bool.or_eq_true, beq_iff_eq] at hc
    obtain ⟨⟨hx, hg⟩, hd⟩ := hc
    exact ⟨fun ho => ⟨⟨hx, hg, ho⟩, hd⟩, fun h => h.1.2.2⟩
  · rename_i hc
    refine iff_of_false nofun fun ⟨⟨hx, hg, ho⟩, hd⟩ => hc ?_
    simp only [Bool.and_eq_true, Bool.or_eq_true, beq_iff_eq]
    exact ⟨⟨hx, hg⟩, hd⟩

theorem linksInUse_nodup (s : State) : (linksInUse s).Nodup := by
  unfold linksInUse
  split <;> decide

theorem noticeBefore_irrefl (n : Notice) : ¬ noticeBefore n n := by
  cases n <;> first | exact Nat.lt_irrefl _ | exact id

/-- On one link GRANTED comes before TAKEN, and each kind in the order of its first axes. -/
theorem ownershipPosts_sorted (s : State) (x : AxisSet) (v : Axis → Verdict) :
    (ownershipPosts s x v).Pairwise fun p p' => p.dest = p'.dest → noticeBefore p.notice p'.notice := by
  rw [ownershipPosts_eq, List.pairwise_flatMap]
  refine ⟨fun d _ => List.pairwise_append.2 ⟨?_, ?_, fun p hp p' hp' _ => ?_⟩, (linksInUse_nodup s).imp
    fun {d d'} hne p hp p' hp' heq => absurd ?_ hne⟩
  · refine (groupedPosts_sorted d _ .granted).imp fun {p p'} h _ => ?_
    obtain ⟨y, m, y', m', hp, hp', hlt⟩ := h
    rw [hp, hp']
    exact hlt
  · refine (groupedPosts_sorted d _ .taken).imp fun {p p'} h _ => ?_
    obtain ⟨y, m, y', m', hp, hp', hlt⟩ := h
    rw [hp, hp']
    exact hlt
  · obtain ⟨_, y, m, hy⟩ := groupedPosts_form hp
    obtain ⟨_, y', m', hy'⟩ := groupedPosts_form hp'
    rw [hy, hy']
    trivial
  · have hdest : ∀ {d p}, p ∈ groupedPosts d (grantedOwner x v d) .granted ++ groupedPosts d (takenOwner s x v d) .taken →
        p.dest = d := fun hp => (List.mem_append.1 hp).elim (fun h => (groupedPosts_form h).1)
          fun h => (groupedPosts_form h).1
    rw [← hdest hp, ← hdest hp', heq]

/-- A notice of an ownership change goes to a link in use. -/
theorem mem_ownershipPosts {s : State} {x : AxisSet} {v : Axis → Verdict} {p : Post} : p ∈ ownershipPosts s x v ↔
    p.dest ∈ linksInUse s ∧ (p ∈ groupedPosts p.dest (grantedOwner x v p.dest) .granted ∨
      p ∈ groupedPosts p.dest (takenOwner s x v p.dest) .taken) := by
  rw [ownershipPosts_eq, List.mem_flatMap]
  simp only [List.mem_append]
  constructor
  · rintro ⟨d, hd, hp | hp⟩ <;> obtain ⟨rfl, _⟩ := groupedPosts_form hp
    · exact ⟨hd, .inl hp⟩
    · exact ⟨hd, .inr hp⟩
  · exact fun ⟨hd, hp⟩ => ⟨p.dest, hd, hp⟩

/-- Settles O24: the notices are grouped by recipient, kind and new owner from what the verdicts tell. -/
theorem ownershipChangesAreTold : Obligations.OwnershipChangesAreTold := by
  intro i h x n s s0 hi ht hx hlaw hn
  have hshape : changesOwners i = true ∧ requestHeader i = some h ∧ isReset i = false ∧ ownershipAxes i = x ∧
      ownershipArgument i = true ∧
      ∀ a, (ownershipVerdict i s0 a).Grants ∧
        (ownershipVerdict i s0 a).Takes (i = .yield h x n) (s0.authority.get a) := by
    rcases hi with ⟨rfl, hw⟩ | rfl | ⟨rfl, hw⟩ | rfl
    · exact ⟨rfl, rfl, rfl, rfl, decide_eq_true hw, fun a => claimVerdict_told _ _ _ _⟩
    · exact ⟨rfl, rfl, rfl, rfl, rfl, fun a => releaseVerdict_told _ nofun _⟩
    · exact ⟨rfl, rfl, rfl, rfl, by rw [ownershipArgument, flagOf_of_le hw]; rfl,
        fun a => yieldVerdict_told _ rfl _ _⟩
    · exact ⟨rfl, rfl, rfl, rfl, rfl, fun a => seizeVerdict_told _ _ _⟩
  obtain ⟨hi, hh, hr, haxes, hargument, hv⟩ := hshape
  have hexec := exec_taken hh hr ht
  rw [ownershipRequest_body hi, hargument, haxes, authorityRequest_pass hx] at hexec
  have hwithdraw := withdraw_eq (x := changedSet x (ownershipVerdict i s0))
    (s := recordVerdicts x (ownershipVerdict i s0) s0) hn
  refine ⟨fun a => (ownershipVerdict i s0 a).outcome, (recordVerdicts x (ownershipVerdict i s0) s0).authority,
    mapAt (changedSet x (ownershipVerdict i s0)) Blend.toHold s0.blend,
    (withdraw (changedSet x (ownershipVerdict i s0)) (recordVerdicts x (ownershipVerdict i s0) s0)).state.queue,
    ownershipPosts s0 x (ownershipVerdict i s0), ?_, ?_⟩
  · rw [hexec]
    show Host.Outcome.next (placeNotices (_ ++ (withdraw _ _).posts) _) = _
    rw [hwithdraw]
    rfl
  intro grants takes
  have hgrants : ∀ d a m, grantedOwner x (ownershipVerdict i s0) d a = some m ↔
      grants a m ∧ (d = .supervisor ∨ d = m) := fun d a m => grantedOwner_iff (hv a).1
  have htakes : ∀ d a m, takenOwner s0 x (ownershipVerdict i s0) d a = some m ↔
      takes a m ∧ (d = .supervisor ∨ ownerOf s0 a = some d) := fun d a m => by
    rw [takenOwner_iff (hv a).2]
    refine and_congr_left fun _ => and_congr_right fun ha => ?_
    rw [recordVerdicts_get, if_pos ha]
  have hsorted := ownershipPosts_sorted s0 x (ownershipVerdict i s0)
  refine ⟨?_, fun p hp => ?_, fun d hd y m => ⟨?_, ?_⟩, fun d => ?_⟩
  · refine List.nodup_iff_pairwise_ne.2 (hsorted.imp fun {p p'} hbefore heq => ?_)
    subst heq
    exact noticeBefore_irrefl _ (hbefore rfl)
  · obtain ⟨hd, hp⟩ := mem_ownershipPosts.1 hp
    refine ⟨hd, ?_⟩
    rcases hp with hp | hp <;> obtain ⟨_, y, m, hy⟩ := groupedPosts_form hp
    · exact ⟨y, m, .inl hy⟩
    · exact ⟨y, m, .inr hy⟩
  · rw [mem_ownershipPosts, and_iff_right hd, or_iff_left fun hp => ?_]
    · simp only [mem_groupedPosts_iff (mk := .granted) (by simp), hgrants]
    · obtain ⟨_, y', m', hy⟩ := groupedPosts_form hp
      cases hy
  · rw [mem_ownershipPosts, and_iff_right hd, or_iff_right fun hp => ?_]
    · simp only [mem_groupedPosts_iff (mk := .taken) (by simp), htakes]
    · obtain ⟨_, y', m', hy⟩ := groupedPosts_form hp
      cases hy
  · refine (hsorted.filter _).imp_of_mem fun {p p'} hp hp' hbefore => hbefore ?_
    obtain ⟨_, hd⟩ := List.mem_filter.1 hp
    obtain ⟨_, hd'⟩ := List.mem_filter.1 hp'
    rw [beq_iff_eq.1 hd, beq_iff_eq.1 hd']

end Sys2Proof.Machine
end

section
/-! PROOFS. The shaper: samples, stale entry and the joystick settings (O26, O28). -/

namespace Sys2Proof.Machine

/-! ## Stale entry -/

theorem staleOf_eq (m : Master) : staleOf m = staleSource m := by cases m <;> rfl

theorem enterStale_eq (m : Master) (s : State) : enterStale m s = raise (staleOf m) (carriesMaster m)
    { s with joysticks := s.joysticks.set m { s.joysticks.get m with stale := .stale } } := by
  rw [staleOf_eq]
  rfl

theorem exceeds_iff {s : State} {m : Master} {limit : Nat} : exceeds s m limit = true ↔
    ∀ t, (s.joysticks.get m).arrival = some t → limit < s.timebase.ms - t := by
  unfold exceeds joystickElapsed
  cases (s.joysticks.get m).arrival <;> simp

theorem staleEntry_due {s : State} {m : Master} {limit : Nat} (hf : (s.joysticks.get m).stale = .fresh)
    (hl : s.settings.staleLimits.get m = some limit) (he : exceeds s m limit = true) :
    staleEntry m s = enterStale m s := by
  unfold staleEntry
  rw [hf, hl]
  exact if_pos he

theorem staleEntry_quiet {s : State} {m : Master} (h : (s.joysticks.get m).stale = .fresh →
    ∀ limit, s.settings.staleLimits.get m = some limit → exceeds s m limit = false) : staleEntry m s = quiet s := by
  unfold staleEntry
  split
  · rename_i limit hf hl
    rw [h hf limit hl]
    rfl
  · rfl

theorem exec_staleEntry (dt : Nat) (m : Master) (s : State) :
    exec (.staleEntry dt m) s = .next (staleEntry m (elapse dt s)).settle := rfl

/-- Settles O26: a sample is the clamp of each deflection, and a master with no arrival time exceeds every limit. -/
theorem samplesArriveAndGoStale : Obligations.SamplesArriveAndGoStale := by
  refine ⟨fun dt m d s => ?joy, fun dt m s => ?staleEntry⟩
  case joy =>
    have hexec : exec (.joy dt m d) s = .next (receiveJoy m d (elapse dt s)) := rfl
    rw [hexec]
    generalize elapse dt s = s1
    refine ⟨fun hc => ?_, fun ho => ?_⟩
    · rw [receiveJoy, hc]
    · rw [receiveJoy, ho]
      simp only [takeSample, clampTo_eq_max_min (show (-2047 : Int) ≤ 2047 by decide)]
      rfl
  case staleEntry =>
    rw [exec_staleEntry]
    generalize elapse dt s = s1
    intro _ j due
    refine ⟨fun ⟨hf, l, hl, he⟩ => ?_, fun hn => ?_⟩
    · rw [staleEntry_due hf hl (exceeds_iff.2 he), enterStale_eq]
    · rw [staleEntry_quiet fun hf l hl => Bool.eq_false_iff.2 fun he => hn ⟨hf, l, hl, exceeds_iff.1 he⟩]
      rfl

/-! ## The joystick settings -/

theorem masterOf_eq_some {n : Nat} {m : Master} : masterOf n = some m ↔ n = masterNumber m := by
  refine ⟨fun h => ?_, fun h => h ▸ masterOf_number m⟩
  unfold masterOf at h
  split at h <;> cases h <;> rfl

theorem namesAnother_iff {s : State} {r : Master} {n : Nat} : namesAnother s r n = true ↔
    actsAsSupervisor s r = false ∧ ∃ m, n = masterNumber m ∧ m ≠ r := by
  simp only [namesAnother, ← masterOf_eq_some, Bool.and_eq_true, Bool.not_eq_true']
  refine and_congr_right fun _ => ?_
  cases masterOf n <;> simp

theorem profileOf_eq {db e g inv : Nat} (h : db ≤ 511 ∧ e ≤ 256 ∧ g ≤ 65535 ∧ inv ≤ 1) : profileOf db e g inv =
    some { deadband := db, expo := e, gain := g, invert := inv == 1 } := by
  obtain ⟨hdb, he, hg, hinv⟩ := h
  unfold profileOf
  rw [flagOf_of_le hinv]
  exact if_pos ⟨hdb, he, hg⟩

theorem profileOf_none {db e g inv : Nat} (h : ¬ (db ≤ 511 ∧ e ≤ 256 ∧ g ≤ 65535 ∧ inv ≤ 1)) :
    profileOf db e g inv = none := by
  unfold profileOf
  split
  · rename_i b hb
    exact if_neg fun ⟨hdb, he, hg⟩ => h ⟨hdb, he, hg, (flagOf_eq_some hb).1⟩
  · rfl

theorem setProfile_refuses {s : State} {r : Master} {n k db e g inv : Nat} (ho : namesAnother s r n = false)
    (hk : namesUnfitted s k = false)
    (h : masterOf n = none ∨ Axis.ofNumber? k = none ∨ profileOf db e g inv = none) :
    setProfile r n k db e g inv s = refuse s .badArgument := by
  rw [setProfile, ho, hk]
  rcases h with h | h | h <;> rw [h] <;> simp

theorem setProfile_accepts {s : State} {r m : Master} {a : Axis} {db e g inv : Nat} {p : Profile}
    (ho : namesAnother s r (masterNumber m) = false) (hk : namesUnfitted s a.number = false)
    (hp : profileOf db e g inv = some p) :
    setProfile r (masterNumber m) a.number db e g inv s = accept (setProfileOf m a p s) .none := by
  rw [setProfile, ho, hk, masterOf_number, Axis.ofNumber_number, hp]
  rfl

theorem setStaleLimit_refuses {s : State} {r : Master} {n l : Nat} (ho : namesAnother s r n = false)
    (h : (n = 0 ∨ 3 < n) ∨ (l ≠ 0 ∧ (l < 5 ∨ 250 < l)) ∨ (l = 0 ∧ n ≠ 3)) :
    setStaleLimit r n l s = refuse s .badArgument := by
  rw [setStaleLimit, ho]
  rcases h with hn | ⟨h0, hl⟩ | ⟨rfl, hn⟩
  · rw [masterOf_none hn]
    rfl
  · have hlimit : limitOf l = none := by
      rw [limitOf, if_neg h0, if_neg]
      rw [numberWithin_iff]
      omega
    rw [hlimit]
    simp
  · cases hm : masterOf n with
    | none => rfl
    | some m =>
      show (if (none : Option Nat) = none ∧ m ≠ .supervisor then _ else _) = _
      refine if_pos ⟨rfl, fun hs => hn ?_⟩
      rw [masterOf_eq_some.1 hm, hs]
      rfl

theorem setStaleLimit_accepts {s : State} {r m : Master} {l : Nat}
    (ho : namesAnother s r (masterNumber m) = false)
    (h : (5 ≤ l ∧ l ≤ 250) ∨ (l = 0 ∧ masterNumber m = 3)) :
    setStaleLimit r (masterNumber m) l s = acceptWith (rejudgeStale m (if l = 0 then none else some l)
      (setLimitOf m (if l = 0 then none else some l) s)) .none := by
  rw [setStaleLimit, ho, masterOf_number]
  rcases h with hl | ⟨rfl, hm⟩
  · have hpos : l ≠ 0 := by omega
    have hlimit : limitOf l = some (some l) := by rw [limitOf, if_neg hpos, if_pos (numberWithin_iff.2 hl)]
    rw [hlimit, if_neg hpos]
    rfl
  · have hs : m = .supervisor := by cases m <;> first | rfl | cases hm
    rw [hs]
    rfl

theorem rejudgeStale_past {s : State} {m : Master} {l : Nat} (hf : (s.joysticks.get m).stale = .fresh)
    (he : exceeds s m l = true) : rejudgeStale m (some l) s = enterStale m s := by
  unfold rejudgeStale
  rw [hf]
  exact if_pos he

theorem rejudgeStale_fresh {s : State} {m : Master} {l : Option Nat} (hf : (s.joysticks.get m).stale = .fresh)
    (he : ∀ n, l = some n → exceeds s m n = false) : rejudgeStale m l s = quiet s := by
  unfold rejudgeStale
  rw [hf]
  cases l with
  | none => rfl
  | some n => exact if_neg (by rw [he n rfl]; exact Bool.false_ne_true)

/-- Settles O28: the profile and the limit are the ones their octets give, and the new limit judges the stale state. -/
theorem joystickSettingsAreReplaced : Obligations.JoystickSettingsAreReplaced := by
  refine ⟨fun h n k db e g inv s s0 => ?profile, fun h n l s s0 => ?limit⟩
  case profile =>
    intro i ht other
    have hnot : ¬ other → namesAnother s0 h.link n = false := fun ho =>
      Bool.eq_false_iff.2 fun h => ho (namesAnother_iff.1 h)
    have hrefuses : ∀ c, setProfile h.link n k db e g inv s0 = refuse s0 c → exec i s = .next (refusedWith h c s0) :=
      fun c hb => exec_refuses rfl rfl ht hb
    refine ⟨fun ho => hrefuses _ (if_pos (namesAnother_iff.2 ho)), fun ho hk => hrefuses _
      (setProfile_refuses (hnot ho) (namesUnfitted_none hk) (.inr (.inl (axisOfNumber_none hk)))), ?_⟩
    rintro a rfl fitted inRange
    have hfit : fitted → namesUnfitted s0 a.number = false := namesUnfitted_eq_false.2
    refine ⟨fun ho hf => hrefuses _ ?_, fun ho hf hbad => hrefuses _ (setProfile_refuses (hnot ho) (hfit hf) ?_),
      fun m hm ho hf hr => ?_⟩
    · rw [setProfile, hnot ho]
      exact if_pos (Bool.not_eq_false _ ▸ mt namesUnfitted_eq_false.1 hf)
    · exact hbad.imp masterOf_none fun hr => .inr (profileOf_none hr)
    · subst hm
      exact exec_accepts rfl rfl ht (setProfile_accepts (hnot ho) (hfit hf) (profileOf_eq hr))
  case limit =>
    intro i ht other
    have hnot : ¬ other → namesAnother s0 h.link n = false := fun ho =>
      Bool.eq_false_iff.2 fun h => ho (namesAnother_iff.1 h)
    refine ⟨fun ho => exec_refuses rfl rfl ht (if_pos (namesAnother_iff.2 ho)),
      fun ho hbad => exec_refuses rfl rfl ht (setStaleLimit_refuses (hnot ho) hbad), ?_⟩
    rintro m rfl ho hl
    have hbody : requestBody i s0 = _ := setStaleLimit_accepts (hnot ho) hl
    intro s2 j past
    have hquiet : ∀ t, rejudgeStale m (if l = 0 then none else some l) s2 = quiet t →
        exec i s = .next (okay h .none t) := fun t hq =>
      exec_accepts rfl rfl ht (hbody.trans (congrArg (acceptWith · .none) hq))
    refine ⟨fun hf hp => ?_, fun hf hp => hquiet _ (rejudgeStale_fresh hf ?_), fun hs h0 => hquiet _ ?_,
      fun hs h0 => hquiet _ ?_⟩
    · obtain ⟨h0, hp⟩ := hp
      have hpast : rejudgeStale m (if l = 0 then none else some l) s2 = raise (staleOf m) (carriesMaster m)
          { s2 with joysticks := s0.joysticks.set m { j with stale := .stale } } := by
        rw [if_neg h0]
        exact (rejudgeStale_past (s := s2) hf (exceeds_iff.2 hp)).trans (enterStale_eq m s2)
      exact exec_acceptsWith rfl rfl ht (hbody.trans (congrArg (acceptWith · .none) hpast))
    · intro k hk
      split at hk
      · cases hk
      · rename_i h0
        obtain rfl := Option.some.inj hk
        exact Bool.eq_false_iff.2 fun he => hp ⟨h0, exceeds_iff.1 he⟩
    · rw [if_neg h0]
      unfold rejudgeStale
      rw [show (s2.joysticks.get m).stale = .stale from hs]
    · rw [if_pos h0]
      unfold rejudgeStale
      rw [show (s2.joysticks.get m).stale = .stale from hs]
      rfl

end Sys2Proof.Machine
end

section
/-! PROOFS. Resolution, and the order in which the edit requests refuse (O29, O31). -/

namespace Sys2Proof.Machine

/-! ## Resolution -/

theorem cacheEntry_isFor_iff {d b p : Nat} {e : CacheEntry} :
    e.isFor d b p = true ↔ e.directory = d ∧ e.bank = b ∧ e.pos = p := by
  simp [CacheEntry.isFor, and_assoc]

section Resolve
variable {m : Master} {b p : Nat} {s : State}

theorem resolve_off (hv : (s.settings.views.get m).enabled = false) : resolve m b p s = (s, .fault .viewOff) :=
  if_neg (by rw [show (viewOf s m).enabled = false from hv]; exact Bool.false_ne_true)

theorem resolve_hit (hv : (s.settings.views.get m).enabled = true) {e : CacheEntry}
    (he : s.cache.find? (CacheEntry.isFor (s.settings.views.get m).directory b p) = some e) :
    resolve m b p s = (s.setCache (promote e s.cache), .found { record := e.record, locked := e.locked }) := by
  refine (if_pos hv).trans ?_
  rw [show s.cache.find? (CacheEntry.isFor (viewOf s m).directory b p) = some e from he]

theorem resolve_walk (hv : (s.settings.views.get m).enabled = true)
    (he : ∀ e ∈ s.cache, ¬ e.isFor (s.settings.views.get m).directory b p = true) :
    resolve m b p s = match walk s (s.settings.views.get m) b p with
      | .fault c => (s, .fault c)
      | .found r => (s.setCache (insertEntry
          { directory := (s.settings.views.get m).directory, bank := b, pos := p, record := r.record, locked := r.locked }
          s.cache), .found r) := by
  refine (if_pos hv).trans ?_
  rw [show s.cache.find? (CacheEntry.isFor (viewOf s m).directory b p) = none from List.find?_eq_none.2 he]
  rfl

end Resolve

/-- Settles O29: the first entry with the key is the only one the promotion takes out; without one the walk answers. -/
theorem resolutionHitsOrWalks : Obligations.ResolutionHitsOrWalks := by
  intro m b p s v isFor k fault found
  refine ⟨resolve_off, fun hv l e r hcache hfor hfirst => ?hit, fun hv hmiss => ?miss⟩
  case hit =>
    have hnot : e ∉ l := fun hmem => hfirst e hmem hfor
    have hfind : s.cache.find? (CacheEntry.isFor v.directory b p) = some e :=
      List.find?_eq_some_iff_append.2 ⟨cacheEntry_isFor_iff.2 hfor, l, r, hcache, fun f hf => by
        rw [Bool.not_eq_true', ← Bool.not_eq_true]
        exact fun h => hfirst f hf (cacheEntry_isFor_iff.1 h)⟩
    rw [resolve_hit hv hfind, promote, hcache, List.erase_append_right _ hnot, List.erase_cons_head]
    rfl
  case miss =>
    have hwalk := resolve_walk hv fun e he h => hmiss e he (cacheEntry_isFor_iff.1 h)
    have hfault : ∀ c, walk s v b p = .fault c → fault c := fun c h => by rw [h] at hwalk; exact hwalk
    have hfound : ∀ n l, walk s v b p = .found { record := n, locked := l } → found n l := fun n l h => by
      rw [h] at hwalk; exact hwalk
    refine ⟨fun hb => hfault _ (if_pos hb), fun hb => ?_⟩
    have hbank : walk s v b p = _ := if_neg (Nat.not_le.2 hb)
    refine ⟨fun hk => hfault _ (hbank.trans ?_), fun n hk => ⟨fun hc => hfault _ (hbank.trans ?_),
      fun hc => hfound _ _ (hbank.trans ?_)⟩, fun base count hk => ⟨fun hp => hfault _ (hbank.trans ?_),
      fun hp hr => hfault _ (hbank.trans ?_), fun hp hr => hfound _ _ (hbank.trans ?_)⟩⟩ <;>
      rw [show (bankAt s v.directory b).target = _ from hk]
    · exact if_neg (by rw [hc]; exact Bool.false_ne_true)
    · exact if_pos hc
    · exact if_pos hp
    · exact (if_neg (Nat.not_le.2 hp)).trans (if_pos hr)
    · exact (if_neg (Nat.not_le.2 hp)).trans (if_neg (Nat.not_lt.2 hr))

/-! ## Checks in order -/

/-- Where every check passes, what follows them holds. -/
theorem judged_pass {h : Header} {s : State} {o : Host.Outcome State Fault Refusal} {P : Prop} :
    ∀ {l : List (Prop × RefusalCode)}, judged h s o l P → (∀ c ∈ l, c.1) → P
  | [], hj, _ => hj
  | c :: _, hj, hall => judged_pass (hj.2 (hall c (by simp))) fun d hd => hall d (by simp [hd])

theorem judged_mono {h : Header} {s : State} {o : Host.Outcome State Fault Refusal} {P Q : Prop} (hPQ : P → Q) :
    ∀ {l : List (Prop × RefusalCode)}, judged h s o l P → judged h s o l Q
  | [], hj => hPQ hj
  | _ :: _, ⟨hno, hyes⟩ => ⟨hno, fun hc => judged_mono hPQ (hyes hc)⟩

theorem addressOk_iff {b p : Nat} : addressOk b p = true ↔ addressRange b p := by
  simp [addressOk, addressRange]

theorem keysDiffer_iff {k j : Nat} : keysDiffer k j = true ↔ keysRefuse k j := by
  simp [keysDiffer, keysRefuse, and_assoc]

theorem recordHeld_iff {s : State} {n : Nat} : recordHeld s n = true ↔ ∃ q ∈ s.queue, q.record = n := by
  simp [recordHeld]

/-! ## The stages of an edit -/

/-- The end of an edit that its stages 1 to 6 let through: its own checks, then what it writes. -/
def editEnd (own : State → Nat → Option RefusalCode) (write : State → Nat → Response) (s : State) (n : Nat) : Response :=
  match own s n with
  | some c => refuse s c
  | none => write s n

theorem editEnd_none {own : State → Nat → Option RefusalCode} {write : State → Nat → Response} {s : State} {n : Nat}
    (h : own s n = none) : editEnd own write s n = write s n := by
  unfold editEnd
  rw [h]

theorem editEnd_some {own : State → Nat → Option RefusalCode} {write : State → Nat → Response} {s : State} {n : Nat}
    {c : RefusalCode} (h : own s n = some c) : editEnd own write s n = refuse s c := by
  unfold editEnd
  rw [h]

section Edit
variable {i : Instr} {h : Header} {b p : Nat} {s s0 s1 : State} {own : State → Nat → Option RefusalCode}
  {write : State → Nat → Response} {r : Resolved} {c : RefusalCode}

/-- A fault of the resolution leaves the state. -/
theorem state_of_fault {m : Master} (hres : resolve m b p s0 = (s1, .fault c)) : s0 = s1 := by
  rcases resolve_cases m b p s0 with ⟨c', he⟩ | ⟨e, _, _, he⟩ | ⟨r', _, _, he⟩ <;> rw [he] at hres <;> cases hres
  rfl

theorem edit_arguments : edit h.link b p (some c) own write s0 = refuse s0 c := rfl

theorem edit_fault (hres : resolve h.link b p s0 = (s1, .fault c)) :
    edit h.link b p none own write s0 = refuse s1 c := by
  unfold edit
  rw [hres]

theorem edit_found (hres : resolve h.link b p s0 = (s1, .found r)) : edit h.link b p none own write s0 =
    if r.locked then refuse s1 .locked
    else if keysDiffer (viewOf s1 h.link).key (recordAt s1 r.record).key then refuse s1 .keyMismatch
    else if recordHeld s1 r.record then refuse s1 .inUse
    else if s1.save.isSome then refuse s1 .saving
    else editEnd own write s1 r.record := by
  unfold edit
  rw [hres]
  rfl

/-- A refusal in the state that a resolution left. -/
theorem exec_refusesIn (hi : requestHeader i = some h) (hr : isReset i = false) (ht : taken i s s0)
    (hb : requestBody i s0 = refuse s1 c) : exec i s = .next (refusedWith h c s1) := by
  rw [exec_taken hi hr ht, hb, answer_refuse]

/-- Stages 3 to 6 of an edit refuse in their order, and let its end through. -/
theorem edit_stages (hi : requestHeader i = some h) (hr : isReset i = false) (ht : taken i s s0)
    (hb : requestBody i s0 = edit h.link b p none own write s0) (hres : resolve h.link b p s0 = (s1, .found r)) :
    judged h s1 (exec i s) (editChecks h.link s1 r) (requestBody i s0 = editEnd own write s1 r.record) := by
  have hrefuses : ∀ c, requestBody i s0 = refuse s1 c → exec i s = .next (refusedWith h c s1) := fun c hc =>
    exec_refusesIn hi hr ht hc
  rw [edit_found hres] at hb
  refine ⟨fun hl => hrefuses _ (hb.trans (if_pos (Bool.not_eq_false _ ▸ hl))), fun hl => ?_⟩
  rw [if_neg (by rw [hl]; exact Bool.false_ne_true)] at hb
  refine ⟨fun hk => hrefuses _ (hb.trans (if_pos (keysDiffer_iff.2 (Classical.not_not.1 hk)))), fun hk => ?_⟩
  rw [if_neg (show ¬ keysDiffer (viewOf s1 h.link).key (recordAt s1 r.record).key = true from
    mt keysDiffer_iff.1 hk)] at hb
  refine ⟨fun hu => hrefuses _ (hb.trans (if_pos (recordHeld_iff.2 ?_))), fun hu => ?_⟩
  · simpa using hu
  rw [if_neg fun h => (recordHeld_iff.1 h).elim fun q hq => hu q hq.1 hq.2] at hb
  refine ⟨fun hs => hrefuses _ (hb.trans (if_pos (Option.isSome_iff_ne_none.2 hs))), fun hs => ?_⟩
  rw [if_neg fun h => Option.isSome_iff_ne_none.1 h hs] at hb
  exact hb

/-- An edit that comes to stage 7 is its end on the record, in the state its resolution left. -/
theorem editReaches_body {n : Nat} (hi : requestHeader i = some h) (hr : isReset i = false) (ht : taken i s s0)
    (ha : editAddress i = some (h, b, p))
    (hb : editArguments s0 i → requestBody i s0 = edit h.link b p none own write s0)
    (hreach : editReaches i h s0 s1 n) : requestBody i s0 = editEnd own write s1 n := by
  obtain ⟨b', p', r, ha', hargs, rfl, hres, hall⟩ := hreach
  rw [ha, Option.some.injEq, Prod.mk.injEq, Prod.mk.injEq] at ha'
  obtain ⟨_, rfl, rfl⟩ := ha'
  exact judged_pass (edit_stages hi hr ht (hb hargs) hres) hall

/-- A resolution that reaches stage 7 keeps the laws of the store. -/
theorem storeLaw_of_editReaches {n : Nat} (hs : storeLaw s0) (hreach : editReaches i h s0 s1 n) : storeLaw s1 := by
  obtain ⟨b, p, r, _, _, _, hres, _⟩ := hreach
  have hlaw := (storeLaw_resolve h.link b p s0 hs).1
  rw [hres] at hlaw
  exact hlaw

/-- A resolution that reaches stage 7 keeps the settings. -/
theorem settings_of_editReaches {n : Nat} (hreach : editReaches i h s0 s1 n) : s1.settings = s0.settings := by
  obtain ⟨b, p, r, _, _, _, hres, _⟩ := hreach
  rcases resolve_cases h.link b p s0 with ⟨c, he⟩ | ⟨e, _, _, he⟩ | ⟨r', _, _, he⟩ <;> rw [he] at hres <;> cases hres <;>
    rfl

end Edit

/-! ## Arguments of the edit requests -/

theorem shapeOf_of_le {n : Nat} (h : n ≤ 2) : shapeOf n = some (shapeNumbered n) := by
  obtain rfl | rfl | rfl : n = 0 ∨ n = 1 ∨ n = 2 := by omega
  all_goals rfl

theorem shapeOf_isSome {n : Nat} : (shapeOf n).isSome = true ↔ n ≤ 2 := by
  refine ⟨fun h => ?_, fun h => by rw [shapeOf_of_le h]; rfl⟩
  refine Classical.byContradiction fun hn => ?_
  have hnone : shapeOf n = none := by
    unfold shapeOf
    split <;> first | omega | rfl
  rw [hnone] at h
  cases h

theorem flagOf_isSome {n : Nat} : (flagOf n).isSome = true ↔ n ≤ 1 := by
  refine ⟨fun h => ?_, fun h => by rw [flagOf_of_le h]; rfl⟩
  obtain ⟨b, hb⟩ := Option.isSome_iff_exists.1 h
  exact (flagOf_eq_some hb).1

theorem durationOk_iff {d : Nat} : durationOk d = true ↔ 1 ≤ d ∧ d ≤ 60000 := numberWithin_iff

theorem softOk_iff {s : State} {a : Axis} {v : Int} : softOk s a v = true ↔ softRange s a v := within_iff

theorem capturable_iff {s : State} {x : AxisSet} :
    capturable s x = true ↔ ∀ a, AxisSet.has x a = true → softRange s a (d1Of s a) := by
  rw [capturable, members_all]
  exact forall_congr' fun a => imp_congr_right fun _ => softOk_iff

/-- What STORE PRESET asks of a keyframe. -/
def keyframeArguments (s : State) (x : AxisSet) (k : KeyframeArg) : Prop :=
  k.targets.length = axisCount x ∧ keyframeOctets k.duration k.shape k.gate ∧
    ∀ q ∈ (AxisSet.members x).zip k.targets, positionRange q.2 ∧ softRange s q.1 q.2

/-- The keyframe that STORE PRESET keeps. -/
def storedKeyframe (x : AxisSet) (k : KeyframeArg) : Keyframe :=
  { targets := spread x k.targets, duration := k.duration, shape := shapeNumbered k.shape, gate := k.gate == 1 }

/-- A property of the second parts of a zip is one of the whole second list, where the first is long enough. -/
theorem forall_mem_zip_snd {α β : Type} {l : List α} {r : List β} {P : β → Prop} (h : r.length ≤ l.length) :
    (∀ q ∈ l.zip r, P q.2) ↔ ∀ v ∈ r, P v := by
  rw [← List.forall_mem_map (f := Prod.snd) (P := P), List.map_snd_zip h]

theorem keyframeOf_of_arguments {s : State} {x : AxisSet} {k : KeyframeArg} (h : keyframeArguments s x k) :
    keyframeOf s x k = some (storedKeyframe x k) := by
  obtain ⟨hlen, ⟨hlo, hhi, hshape, hgate⟩, hzip⟩ := h
  unfold keyframeOf
  rw [shapeOf_of_le hshape, flagOf_of_le hgate]
  refine if_pos ⟨hlen, List.all_eq_true.2 fun v hv => isPosition_iff.2 ?_, durationOk_iff.2 ⟨hlo, hhi⟩,
    List.all_eq_true.2 fun q hq => softOk_iff.2 (hzip q hq).2⟩
  exact (forall_mem_zip_snd (P := positionRange) (Nat.le_of_eq hlen)).1 (fun q hq => (hzip q hq).1) v hv

theorem arguments_of_keyframeOf {s : State} {x : AxisSet} {k : KeyframeArg} {v : Keyframe}
    (h : keyframeOf s x k = some v) : keyframeArguments s x k := by
  unfold keyframeOf at h
  split at h
  · rename_i sh g hsh hg
    split at h
    · rename_i hc
      obtain ⟨hlen, hpos, hdur, hsoft⟩ := hc
      obtain ⟨hlo, hhi⟩ := durationOk_iff.1 hdur
      refine ⟨hlen, ⟨hlo, hhi, shapeOf_isSome.1 (by rw [hsh]; rfl), (flagOf_eq_some hg).1⟩, fun q hq =>
        ⟨?_, softOk_iff.1 (List.all_eq_true.1 hsoft q hq)⟩⟩
      exact (forall_mem_zip_snd (P := positionRange) (Nat.le_of_eq hlen)).2
        (fun v hv => isPosition_iff.1 (List.all_eq_true.1 hpos v hv)) q hq
    · cases h
  · cases h

theorem allSome_map {α β : Type} {f : α → Option β} {g : α → β} : ∀ {l : List α}, (∀ v ∈ l, f v = some (g v)) →
    allSome (l.map f) = some (l.map g)
  | [], _ => rfl
  | v :: l, h => by
    rw [List.map_cons, h v (by simp), allSome, allSome_map fun w hw => h w (by simp [hw])]
    rfl

theorem mem_allSome {α β : Type} {f : α → Option β} : ∀ {l : List α} {r : List β}, allSome (l.map f) = some r →
    ∀ v ∈ l, ∃ w, f v = some w
  | [], _, _, v, hv => absurd hv List.not_mem_nil
  | u :: l, r, h, v, hv => by
    rw [List.map_cons] at h
    cases hu : f u with
    | none => rw [hu] at h; cases h
    | some w =>
      rw [hu, allSome, Option.map_eq_some_iff] at h
      obtain ⟨r', hr', _⟩ := h
      rcases List.mem_cons.1 hv with rfl | hv
      · exact ⟨w, hu⟩
      · exact mem_allSome hr' v hv

theorem labelOk_iff {l : List Octet} :
    labelOk l = true ↔ l.length ≤ 12 ∧ ∀ o ∈ l, 32 ≤ o.toNat ∧ o.toNat ≤ 126 := by
  simp [labelOk, numberWithin_iff]

section StorePreset
variable {h : Header} {b p : Nat} {x : AxisSet} {g : Nat} {l : List Octet} {ks : List KeyframeArg} {s : State}

/-- The record that STORE PRESET writes. -/
def storedRecord (m : Master) (x : AxisSet) (g : Nat) (l : List Octet) (ks : List KeyframeArg) (s : State) :
    PresetRecord :=
  { body := some { axes := x, keyframes := ks.map (storedKeyframe x), label := labelOf l }
    key := (viewOf s m).key, guarded := g == 1, author := some m }

theorem storePreset_edit (hargs : editArguments s (.storePreset h b p x g l ks)) :
    storePreset h.link b p x g l ks s = edit h.link b p none (fun _ _ => none)
      (fun s n => accept (s.setRecord n (storedRecord h.link x g l ks s)) (.stored n)) s := by
  obtain ⟨haddress, hx, hfit, hg, hlo, hhi, hlen, hlabel, hks⟩ := hargs
  have hbody : storedBody s x l ks =
      some { axes := x, keyframes := ks.map (storedKeyframe x), label := labelOf l } := by
    unfold storedBody
    rw [allSome_map fun k hk => keyframeOf_of_arguments (hks k hk)]
    exact if_pos ⟨hx, hfit, numberWithin_iff.2 ⟨hlo, hhi⟩, labelOk_iff.2 ⟨hlen, hlabel⟩⟩
  unfold storePreset
  rw [hbody, flagOf_of_le hg, failing_eq_none.2 (addressOk_iff.2 haddress)]
  rfl

theorem storePreset_refuses (hargs : ¬ editArguments s (.storePreset h b p x g l ks)) :
    storePreset h.link b p x g l ks s = refuse s .badArgument := by
  unfold storePreset
  split
  · rename_i body flag hbody hg
    have haddress : addressOk b p = false := by
      refine Bool.eq_false_iff.2 fun haddress => hargs ?_
      unfold storedBody at hbody
      split at hbody
      · rename_i kfs hkfs
        split at hbody
        · rename_i hc
          obtain ⟨hx, hfit, hcount, hlabel⟩ := hc
          obtain ⟨hlo, hhi⟩ := numberWithin_iff.1 hcount
          obtain ⟨hlen, hoctets⟩ := labelOk_iff.1 hlabel
          exact ⟨addressOk_iff.1 haddress, hx, hfit, (flagOf_eq_some hg).1, hlo, hhi, hlen, hoctets, fun k hk =>
            (mem_allSome hkfs k hk).elim fun _ hv => arguments_of_keyframeOf hv⟩
        · cases hbody
      · cases hbody
    rw [haddress]
    rfl
  · rfl

end StorePreset

theorem captureArguments_none {h : Header} {b p d sh : Nat} {x : AxisSet} {s : State}
    (hargs : editArguments s (.capture h b p x d sh)) : captureArguments s b p x d sh = none := by
  obtain ⟨haddress, hx, hfit, hlo, hhi, hshape, _⟩ := hargs
  unfold captureArguments
  rw [axisSetCheck_pass hfit hx]
  exact failing_eq_none.2 (by rw [addressOk_iff.2 haddress, durationOk_iff.2 ⟨hlo, hhi⟩, shapeOf_isSome.2 hshape]; rfl)

theorem captureArguments_some {h : Header} {b p d sh : Nat} {x : AxisSet} {s : State}
    (hargs : ¬ editArguments s (.capture h b p x d sh)) :
    captureArguments s b p x d sh = some (editArgumentCode s (.capture h b p x d sh)) := by
  have hcode : editArgumentCode s (.capture h b p x d sh) =
    if x &&& ~~~s.settings.fitted = 0#8 then .badArgument else .badAxis := rfl
  rw [hcode]
  unfold captureArguments
  by_cases hfit : x &&& ~~~s.settings.fitted = 0#8
  · rw [if_pos hfit]
    by_cases hx : x = 0#8
    · rw [axisSetCheck_of_empty hx]
    · rw [axisSetCheck_pass hfit hx]
      have hfails : (addressOk b p && durationOk d && (shapeOf sh).isSome) = false := by
        refine Bool.eq_false_iff.2 fun hall => hargs ?_
        rw [Bool.and_eq_true, Bool.and_eq_true, addressOk_iff, durationOk_iff, shapeOf_isSome] at hall
        obtain ⟨⟨haddress, hlo, hhi⟩, hshape⟩ := hall
        exact ⟨haddress, hx, hfit, hlo, hhi, hshape, Nat.zero_le _⟩
      rw [hfails]
      rfl
  · rw [axisSetCheck_badAxis hfit, if_neg hfit]

theorem appendArguments_eq_none {h : Header} {b p : Nat} {k : AppendArg} {s : State} :
    appendArguments b p k = none ↔ editArguments s (.appendKeyframe h b p k) := by
  cases k with
  | explicit ps d sh g =>
    simp only [appendArguments, editArguments, failing_eq_none, Bool.and_eq_true, addressOk_iff, durationOk_iff,
      shapeOf_isSome, flagOf_isSome, List.all_eq_true, isPosition_iff, keyframeOctets, positionRange, and_assoc]
  | capture d sh g =>
    simp only [appendArguments, editArguments, failing_eq_none, Bool.and_eq_true, addressOk_iff, durationOk_iff,
      shapeOf_isSome, flagOf_isSome, keyframeOctets, and_assoc]
  | unreadable => exact iff_of_false nofun id

theorem appendArguments_some {b p : Nat} {k : AppendArg} (h : appendArguments b p k ≠ none) :
    appendArguments b p k = some .badArgument := by
  cases k <;> simp only [appendArguments, failing] at h ⊢
  · split at h <;> simp_all
  · split at h <;> simp_all

/-- The record that CAPTURE writes over the one it finds. -/
def capturedRecord (m : Master) (x : AxisSet) (d sh : Nat) (s : State) (n : Nat) : PresetRecord :=
  { recordAt s n with
    body := some { axes := x
                   keyframes := [capturedKeyframe s x d ((shapeOf sh).getD .linear) false]
                   label := labelKept (recordAt s n) }
    author := some m }

theorem capture_edit {h : Header} {b p d sh : Nat} {x : AxisSet} {s : State}
    (hargs : editArguments s (.capture h b p x d sh)) : capture h.link b p x d sh s =
      edit h.link b p none (fun s _ => failing (capturable s x) .outOfLimits)
        (fun s n => accept (s.setRecord n (capturedRecord h.link x d sh s n))
          (.captured n ((AxisSet.members x).map (d1Of s)))) s := by
  rw [capture, captureArguments_none hargs]
  rfl

theorem appendKeyframe_edit {h : Header} {b p : Nat} {k : AppendArg} {s : State}
    (hargs : editArguments s (.appendKeyframe h b p k)) : appendKeyframe h.link b p k s =
      edit h.link b p none (fun s n => appendCheck s n k) (appendTo h.link k) s := by
  rw [appendKeyframe, appendArguments_eq_none.2 hargs]

theorem erasePreset_edit {h : Header} {b p : Nat} {s : State} (hargs : editArguments s (.erasePreset h b p)) :
    erasePreset h.link b p s = edit h.link b p none (fun _ _ => none)
      (fun s n => accept (s.setRecord n { recordAt s n with body := none }) (.stored n)) s := by
  rw [erasePreset, failing_eq_none.2 (addressOk_iff.2 hargs)]

/-- What each edit request checks and does behind its arguments. -/
theorem editRequest_cases {i : Instr} {h : Header} {b p : Nat} (s0 : State) (ha : editAddress i = some (h, b, p)) :
    requestHeader i = some h ∧ isReset i = false ∧
    (¬ editArguments s0 i → requestBody i s0 = refuse s0 (editArgumentCode s0 i)) ∧
    (editArguments s0 i → ∃ own write, requestBody i s0 = edit h.link b p none own write s0) := by
  cases i <;> cases ha
  case storePreset x g l ks =>
    exact ⟨rfl, rfl, storePreset_refuses, fun hargs => ⟨_, _, storePreset_edit hargs⟩⟩
  case capture x d sh =>
    refine ⟨rfl, rfl, fun hargs => ?_, fun hargs => ⟨_, _, capture_edit hargs⟩⟩
    show capture h.link b p x d sh s0 = _
    rw [capture, captureArguments_some hargs, edit_arguments]
  case appendKeyframe k =>
    refine ⟨rfl, rfl, fun hargs => ?_, fun hargs => ⟨_, _, appendKeyframe_edit hargs⟩⟩
    show appendKeyframe h.link b p k s0 = _
    rw [appendKeyframe, appendArguments_some (mt appendArguments_eq_none.1 hargs), edit_arguments]
    rfl
  case erasePreset =>
    refine ⟨rfl, rfl, fun hargs => ?_, fun hargs => ⟨_, _, erasePreset_edit hargs⟩⟩
    show erasePreset h.link b p s0 = _
    rw [erasePreset, Bool.eq_false_iff.2 (mt addressOk_iff.1 hargs)]
    rfl

/-- Settles O31: each edit request is one edit behind its arguments, and an edit refuses by its stages. -/
theorem editRequestsRefuseInOrder : Obligations.EditRequestsRefuseInOrder := by
  intro i h b p s s0 ha ht
  obtain ⟨hi, hr, hno, hyes⟩ := editRequest_cases s0 ha
  refine ⟨fun hargs => exec_refuses hi hr ht (hno hargs), fun hargs s1 x hres => ?_⟩
  obtain ⟨own, write, hbody⟩ := hyes hargs
  refine ⟨fun c hc => ?_, fun r hx => judged_mono (fun _ => trivial) (edit_stages hi hr ht hbody (hx ▸ hres))⟩
  subst hc
  obtain rfl := state_of_fault hres
  exact exec_refuses hi hr ht (hbody.trans (edit_fault hres))

end Sys2Proof.Machine
end

section
/-! PROOFS. What the edit requests write, QUERY PRESET, and the structure requests (O32 to O35). -/

namespace Sys2Proof.Machine

/-! ## Records written -/

section Writes
variable {i : Instr} {h : Header} {s s0 s1 : State} {n : Nat} {v : PresetRecord} {d : ReplyData}

theorem exec_writesRecord (hi : requestHeader i = some h) (hr : isReset i = false) (ht : taken i s s0)
    (hs : storeLaw s1) (hn : n < 256) (hb : requestBody i s0 = accept (s1.setRecord n v) d) :
    writesRecord h d s1 n v (exec i s) := by
  obtain ⟨hwf, _⟩ := hs
  exact ⟨_, exec_accepts hi hr ht hb, writeAt_wf hwf hn, fun k => readAt_writeAt hwf k⟩

end Writes

theorem capturedRecord_eq {m : Master} {x : AxisSet} {d sh : Nat} (s : State) (n : Nat) (hsh : sh ≤ 2) :
    capturedRecord m x d sh s n =
      { body := some { axes := x, keyframes := [capturedKeyframe s x d (shapeNumbered sh) false]
                       label := (recordAt s n).body.bind RecordBody.label }
        key := (recordAt s n).key, guarded := (recordAt s n).guarded, author := some m } := by
  rw [capturedRecord, shapeOf_of_le hsh]
  rfl

/-- Settles O32: behind its stages each request writes one record of the canonical table. -/
theorem editsWriteTheirRecord : Obligations.EditsWriteTheirRecord := by
  refine fun h b p s s0 s1 n hs hn => ⟨fun x g l ks ht hreach => ?store, fun x d sh ht hreach => ?capture,
    fun ht hreach => ?erase⟩
  case store =>
    exact exec_writesRecord rfl rfl ht (storeLaw_of_editReaches hs hreach) hn
      ((editReaches_body rfl rfl ht rfl storePreset_edit hreach).trans (editEnd_none rfl))
  case capture =>
    have hend := editReaches_body rfl rfl ht rfl capture_edit hreach
    refine ⟨fun hno => exec_refusesIn rfl rfl ht (hend.trans (editEnd_some ?_)), fun hyes => ?_⟩
    · rw [Bool.eq_false_iff.2 (mt capturable_iff.1 hno)]
      rfl
    · have hs1 := storeLaw_of_editReaches hs hreach
      obtain ⟨_, _, _, _, ⟨_, _, _, _, _, hshape, _⟩, _⟩ := hreach
      rw [editEnd_none (failing_eq_none.2 (capturable_iff.2 hyes)), capturedRecord_eq s1 n hshape] at hend
      exact exec_writesRecord rfl rfl ht hs1 hn hend
  case erase =>
    exact exec_writesRecord rfl rfl ht (storeLaw_of_editReaches hs hreach) hn
      ((editReaches_body rfl rfl ht rfl erasePreset_edit hreach).trans (editEnd_none rfl))

/-! ## APPEND KEYFRAME -/

theorem spreadPairs_get (ps : List (Nat × Int)) (a : Axis) :
    (spreadPairs ps).get a = (ps.find? fun q => q.1 == a.number).map Prod.snd := PerAxis.get_ofFn _ a

/-- The own checks of an explicit APPEND KEYFRAME: a target for each axis of the record, within its soft limits. -/
theorem explicitCheck_iff {s : State} {x : AxisSet} {ps : List (Nat × Int)} :
    (pairsMatch x ps = true ∧
      ((AxisSet.members x).all fun a => ((spreadPairs ps).get a).any fun t => softOk s a t) = true) ↔
    ps.length = axisCount x ∧ ∀ a, AxisSet.has x a = true →
      ∃ t, (ps.find? fun q => q.1 == a.number).map Prod.snd = some t ∧ softRange s a t := by
  have htarget : ∀ a, (((spreadPairs ps).get a).any fun t => softOk s a t) = true ↔
      ∃ t, (ps.find? fun q => q.1 == a.number).map Prod.snd = some t ∧ softRange s a t := fun a => by
    rw [spreadPairs_get, Option.any_eq_true]
    simp only [softOk_iff]
  rw [pairsMatch, Bool.and_eq_true, decide_eq_true_iff, members_all, members_all, and_assoc]
  simp only [htarget]
  refine and_congr_right fun _ => and_iff_right_of_imp fun hall a ha => ?_
  obtain ⟨t, ht, _⟩ := hall a ha
  obtain ⟨q, hq, _⟩ := Option.map_eq_some_iff.1 ht
  exact List.any_eq_true.2 ⟨q, List.mem_of_find?_eq_some hq, List.find?_some (p := fun q : Nat × Int => q.1 == a.number) hq⟩

theorem appendBodyCheck_explicit {s : State} {y : RecordBody} {ps : List (Nat × Int)} {d sh g : Nat}
    (hroom : y.keyframes.length < 8) : appendBodyCheck s y (.explicit ps d sh g) =
      if !(pairsMatch y.axes ps) then some .badArgument
      else failing ((AxisSet.members y.axes).all fun a => ((spreadPairs ps).get a).any fun t => softOk s a t)
        .badArgument := if_neg (Nat.not_le.2 hroom)

theorem appendBodyCheck_capture {s : State} {y : RecordBody} {d sh g : Nat} (hroom : y.keyframes.length < 8) :
    appendBodyCheck s y (.capture d sh g) =
      if y.axes &&& ~~~s.settings.fitted ≠ 0#8 then some .badAxis else failing (capturable s y.axes) .outOfLimits :=
  if_neg (Nat.not_le.2 hroom)

theorem appendTo_some {m : Master} {k : AppendArg} {s : State} {n : Nat} {y : RecordBody}
    (hbody : (recordAt s n).body = some y) : appendTo m k s n = accept
      (s.setRecord n { recordAt s n with
        body := some (addKeyframe y (appendedKeyframe s y.axes k)), author := some m })
      (.appended n (y.keyframes.length + 1)) := by
  unfold appendTo
  rw [hbody]

/-- Settles O33: stage 7 judges the body the record holds, by the form of the argument. -/
theorem appendAddsOneKeyframe : Obligations.AppendAddsOneKeyframe := by
  intro h b p k s s0 s1 n hs hn i ht hreach old
  have hs1 := storeLaw_of_editReaches hs hreach
  have hend : requestBody i s0 = editEnd (fun s n => appendCheck s n k) (appendTo h.link k) s1 n :=
    editReaches_body rfl rfl ht rfl appendKeyframe_edit hreach
  have hargs : editArguments s0 i := by
    obtain ⟨_, _, _, _, hargs, _⟩ := hreach
    exact hargs
  have hrefuses : ∀ c, appendCheck s1 n k = some c → exec i s = .next (refusedWith h c s1) := fun c hc =>
    exec_refusesIn rfl rfl ht (hend.trans (editEnd_some hc))
  refine ⟨fun hnone => hrefuses _ ?_, fun body hbody => ?_⟩
  · unfold appendCheck
    rw [show (recordAt s1 n).body = none from hnone]
  intro added
  have hcheck : appendCheck s1 n k = appendBodyCheck s1 body k := by
    unfold appendCheck
    rw [show (recordAt s1 n).body = some body from hbody]
  rw [hcheck] at hrefuses
  have hadds : appendBodyCheck s1 body k = none → writesRecord h (.appended n (body.keyframes.length + 1)) s1 n
      { recordAt s1 n with body := some (addKeyframe body (appendedKeyframe s1 body.axes k)), author := some h.link }
      (exec i s) := fun hc =>
    exec_writesRecord rfl rfl ht hs1 hn (hend.trans ((editEnd_none (hcheck.trans hc)).trans (appendTo_some hbody)))
  refine ⟨fun hfull => hrefuses _ (if_pos (Nat.not_lt.1 hfull)), fun hroom => ⟨?explicit, ?capture⟩⟩
  case explicit =>
    rintro ps d sh g rfl
    intro targets
    obtain ⟨_, ⟨_, _, hsh, hg⟩, _⟩ := hargs
    rw [appendBodyCheck_explicit hroom] at hadds hrefuses
    refine ⟨fun hno => hrefuses _ ?_, fun hyes => ?_⟩
    · by_cases hm : pairsMatch body.axes ps = true
      · rw [hm]
        refine (if_neg Bool.false_ne_true).trans ?_
        rw [Bool.eq_false_iff.2 fun hall => hno (explicitCheck_iff.1 ⟨hm, hall⟩)]
        rfl
      · rw [Bool.eq_false_iff.2 hm]
        rfl
    · obtain ⟨hm, hall⟩ := explicitCheck_iff.2 hyes
      have hwrites := hadds (by rw [hm, hall]; rfl)
      rw [appendedKeyframe, shapeOf_of_le hsh, flagOf_of_le hg] at hwrites
      exact hwrites
  case capture =>
    rintro d sh g rfl
    obtain ⟨_, _, _, hsh, hg⟩ := hargs
    rw [appendBodyCheck_capture hroom] at hadds hrefuses
    refine ⟨fun hfit => hrefuses _ (if_pos hfit), fun hfit => ?_⟩
    rw [if_neg (show ¬ body.axes &&& ~~~s1.settings.fitted ≠ 0#8 from Classical.not_not.2 hfit)] at hadds hrefuses
    refine ⟨fun hno => hrefuses _ ?_, fun hyes => ?_⟩
    · rw [Bool.eq_false_iff.2 (mt capturable_iff.1 hno)]
      rfl
    · have hwrites := hadds (failing_eq_none.2 (capturable_iff.2 hyes))
      rw [appendedKeyframe, shapeOf_of_le hsh, flagOf_of_le hg] at hwrites
      exact hwrites

/-! ## QUERY PRESET -/

theorem guardRefuses_iff {s : State} {m : Master} {n : Nat} : guardRefuses s m n = true ↔
    (recordAt s n).guarded = true ∧ keysRefuse (s.settings.views.get m).key (recordAt s n).key := by
  rw [guardRefuses, Bool.and_eq_true, keysDiffer_iff]
  rfl

theorem keyframesOmitted_eq (s : State) (n f : Nat) : keyframesOmitted s n f =
    (recordAt s n).body.elim 0 fun y => (y.keyframes.drop f).length - keyframesThatFit y.axes := by
  unfold keyframesOmitted
  cases (recordAt s n).body <;> rfl

section QueryPreset
variable {m : Master} {b p f : Nat} {s s1 : State} {r : Resolved}

theorem queryPreset_badArgument (h : ¬ (addressRange b p ∧ f < 8)) : queryPreset m b p f s = refuse s .badArgument :=
  if_neg fun hc => h (by rw [Bool.and_eq_true, addressOk_iff, decide_eq_true_iff] at hc; exact hc)

theorem queryPreset_resolves (h : addressRange b p ∧ f < 8) : queryPreset m b p f s =
    match resolve m b p s with
    | (s, .fault c) => refuse s c
    | (s, .found r) =>
      if guardRefuses s m r.record then refuse s .guarded
      else
        { state := s, posts := []
          reply := { refusal := none, omitted := keyframesOmitted s r.record f
                     data := .preset (presetReport s r f) } } :=
  if_pos (by rw [Bool.and_eq_true, addressOk_iff, decide_eq_true_iff]; exact h)

end QueryPreset

/-- Settles O34: behind the resolution and the guard the reply is the record's report. -/
theorem queryPresetShowsTheRecord : Obligations.QueryPresetShowsTheRecord := by
  intro h b p f s s0 i ht
  refine ⟨fun hno => exec_refuses rfl rfl ht (queryPreset_badArgument hno), fun hyes s1 x hres => ?_⟩
  have hbody : requestBody i s0 = _ := queryPreset_resolves hyes
  rw [hres] at hbody
  refine ⟨fun c hx => ?_, fun r hx => ?_⟩ <;> subst hx
  · obtain rfl := state_of_fault hres
    exact exec_refuses rfl rfl ht hbody
  intro v fit
  refine ⟨fun hguard => exec_refusesIn rfl rfl ht (hbody.trans (if_pos (guardRefuses_iff.2 (Classical.not_not.1 hguard)))),
    fun hopen => ?_⟩
  show exec i s = _
  rw [exec_taken rfl rfl ht, hbody]
  show Host.Outcome.next (answer h (if guardRefuses s1 h.link r.record then _ else _)) = _
  rw [if_neg (mt guardRefuses_iff.1 hopen), keyframesOmitted_eq]
  rfl

/-! ## The structure requests -/

theorem bankTargetOf_iff {k : Nat} {fs : List Nat} {t : BankTarget} :
    bankTargetOf k fs = some t ↔ namesTarget k fs t := by
  constructor
  · intro h
    unfold bankTargetOf at h
    split at h
    · exact .inl ⟨rfl, rfl, (Option.some.inj h).symm⟩
    · split at h
      · exact .inr (.inl ⟨_, rfl, rfl, ‹_›, (Option.some.inj h).symm⟩)
      · cases h
    · split at h
      · rename_i hc
        obtain ⟨hb, hcount⟩ := hc
        obtain ⟨hlo, hhi⟩ := numberWithin_iff.1 hcount
        exact .inr (.inr ⟨_, _, rfl, rfl, hb, hlo, hhi, (Option.some.inj h).symm⟩)
      · cases h
    · cases h
  · rintro (⟨rfl, rfl, rfl⟩ | ⟨n, rfl, rfl, hn, rfl⟩ | ⟨b, c, rfl, rfl, hb, hlo, hhi, rfl⟩)
    · rfl
    · exact if_pos hn
    · exact if_pos ⟨hb, numberWithin_iff.2 ⟨hlo, hhi⟩⟩

/-- The last check of a structure request: SAVING while a SAVE STORE is in flight. -/
theorem judged_saving {i : Instr} {h : Header} {s s0 : State} {r : Response} {P : Prop} (hi : requestHeader i = some h)
    (hr : isReset i = false) (ht : taken i s s0) (hb : requestBody i s0 = unlessSaving s0 r)
    (hP : requestBody i s0 = r → P) : judged h s0 (exec i s) [(s0.save = none, .saving)] P := by
  refine ⟨fun hs => exec_refuses hi hr ht (hb.trans (if_pos (Option.isSome_iff_ne_none.2 hs))), fun hs => hP ?_⟩
  exact hb.trans (if_neg (by rw [hs]; exact Bool.false_ne_true))

section SetBank
variable {d b k l : Nat} {fs : List Nat} {t : BankTarget} {s : State}

theorem setBankEntry_passes (hd : d < 4) (hb : b < 16) (hl : l ≤ 1) (ht : namesTarget k fs t) :
    setBankEntry d b k l fs s = unlessSaving s (accept (s.setBank d b { locked := l == 1, target := t }) .none) := by
  refine (if_pos ⟨hd, hb⟩).trans ?_
  rw [bankTargetOf_iff.2 ht, flagOf_of_le hl]

theorem setBankEntry_refuses (h : ¬ (d < 4 ∧ b < 16 ∧ l ≤ 1 ∧ ∃ t, namesTarget k fs t)) :
    setBankEntry d b k l fs s = refuse s .badArgument := by
  unfold setBankEntry
  split
  · rename_i hc
    obtain ⟨hd, hb⟩ := hc
    split
    · rename_i t f ht hf
      exact absurd ⟨hd, hb, (flagOf_eq_some hf).1, t, bankTargetOf_iff.1 ht⟩ h
    · rfl
  · rfl

end SetBank

section SetCue
variable {c p v l r : Nat} {s : State}

theorem setCueEntry_passes (h : c < 32 ∧ p < 16 ∧ r < 256 ∧ v ≤ 1 ∧ l ≤ 1) : setCueEntry c p v l r s =
    unlessSaving s (accept (s.setCue c p { valid := v == 1, locked := l == 1, record := r }) .none) := by
  obtain ⟨hc, hp, hr, hv, hl⟩ := h
  refine (if_pos ⟨hc, hp, hr⟩).trans ?_
  rw [flagOf_of_le hv, flagOf_of_le hl]

theorem setCueEntry_refuses (h : ¬ (c < 32 ∧ p < 16 ∧ r < 256 ∧ v ≤ 1 ∧ l ≤ 1)) :
    setCueEntry c p v l r s = refuse s .badArgument := by
  unfold setCueEntry
  split
  · rename_i hc
    obtain ⟨hc, hp, hr⟩ := hc
    split
    · rename_i b f hb hf
      exact absurd ⟨hc, hp, hr, (flagOf_eq_some hb).1, (flagOf_eq_some hf).1⟩ h
    · rfl
  · rfl

end SetCue

section SetView
variable {m : Master} {n e d l k : Nat} {s : State}

theorem viewNamed_eq_some {m : Master} : viewNamed n = some m ↔ n + 1 = masterNumber m := by
  refine ⟨fun h => ?_, fun h => ?_⟩
  · unfold viewNamed at h
    split at h <;> cases h <;> rfl
  · obtain rfl : n = masterNumber m - 1 := by omega
    cases m <;> rfl

theorem viewNamed_of_lt (h : n < 3) : ∃ m, viewNamed n = some m := by
  obtain rfl | rfl | rfl : n = 0 ∨ n = 1 ∨ n = 2 := by omega
  all_goals exact ⟨_, rfl⟩

/-- A flag octet that names a flag is 1 where the flag is set and 0 where it is not. -/
theorem flagOf_eq_iff {b : Bool} : flagOf e = some b ↔ e = if b then 1 else 0 := by
  refine ⟨fun h => ?_, fun h => ?_⟩
  · obtain ⟨hle, hiff⟩ := flagOf_eq_some h
    cases b
    · have hne : e ≠ 1 := fun h1 => absurd (hiff.2 h1) Bool.false_ne_true
      show e = 0
      omega
    · exact hiff.1 rfl
  · subst h
    cases b <;> rfl

theorem viewPermitted_iff : viewPermitted s m n e k = true ↔ actsAsSupervisor s m = true ∨
    (n + 1 = masterNumber m ∧ e = (if (s.settings.views.get m).enabled then 1 else 0) ∧
      k = (s.settings.views.get m).key) := by
  rw [viewPermitted, Bool.or_eq_true, Bool.and_eq_true, Bool.and_eq_true, beq_iff_eq, beq_iff_eq, beq_iff_eq,
    viewNamed_eq_some, flagOf_eq_iff, and_assoc]
  rfl

theorem setView_passes {v : Master} (hp : viewPermitted s m n e k = true) (hv : n + 1 = masterNumber v)
    (h : n < 3 ∧ e ≤ 1 ∧ d < 4 ∧ 1 ≤ l ∧ l ≤ 16 ∧ k < 16) : setView m n e d l k s = unlessSaving s (accept
      (s.setView v { enabled := e == 1, directory := d, length := l, key := k }) .none) := by
  obtain ⟨_, he, hd, hlo, hhi, hk⟩ := h
  refine (if_pos hp).trans ?_
  rw [viewNamed_eq_some.2 hv, flagOf_of_le he]
  exact if_pos ⟨hd, numberWithin_iff.2 ⟨hlo, hhi⟩, hk⟩

theorem setView_refuses (hp : viewPermitted s m n e k = true)
    (h : ¬ (n < 3 ∧ e ≤ 1 ∧ d < 4 ∧ 1 ≤ l ∧ l ≤ 16 ∧ k < 16)) : setView m n e d l k s = refuse s .badArgument := by
  refine (if_pos hp).trans ?_
  split
  · rename_i v f hv hf
    refine if_neg fun hc => h ?_
    obtain ⟨hd, hl, hk⟩ := hc
    obtain ⟨hlo, hhi⟩ := numberWithin_iff.1 hl
    have hn : n < 3 := by
      have hnumber := viewNamed_eq_some.1 hv
      have hle : masterNumber v ≤ 3 := by cases v <;> decide
      omega
    exact ⟨hn, (flagOf_eq_some hf).1, hd, hlo, hhi, hk⟩
  · rfl

end SetView

/-- Settles O35: each request decodes its octets, waits for no save, and writes one place of its table. -/
theorem structureRequestsRewriteOneEntry : Obligations.StructureRequestsRewriteOneEntry := by
  refine fun h s s0 hs => ⟨fun d b k l fs ht hp => ?bank, fun c p v l r ht hp => ?cue, fun n e d l k ht => ?view⟩
  case bank =>
    have hbody : requestBody (.setBankEntry h d b k l fs) s0 = setBankEntry d b k l fs s0 := privileged_yes hp _
    refine ⟨fun hno => exec_refuses rfl rfl ht (hbody.trans (setBankEntry_refuses hno)), fun hyes => ?_⟩
    obtain ⟨hd, hb, hl, t, hnames⟩ := hyes
    refine judged_saving rfl rfl ht (hbody.trans (setBankEntry_passes hd hb hl hnames)) fun hend t' hnames' => ?_
    obtain rfl : t = t' := Option.some.inj ((bankTargetOf_iff.2 hnames).symm.trans (bankTargetOf_iff.2 hnames'))
    obtain ⟨_, _, hwf, _⟩ := hs
    exact ⟨_, exec_accepts rfl rfl ht hend, writeAt_wf hwf (by omega), readAt_writeAt hwf⟩
  case cue =>
    have hbody : requestBody (.setCueEntry h c p v l r) s0 = setCueEntry c p v l r s0 := privileged_yes hp _
    refine ⟨fun hno => exec_refuses rfl rfl ht (hbody.trans (setCueEntry_refuses hno)), fun hyes => ?_⟩
    refine judged_saving rfl rfl ht (hbody.trans (setCueEntry_passes hyes)) fun hend => ?_
    obtain ⟨hc, hpos, _⟩ := hyes
    obtain ⟨_, hwf, _⟩ := hs
    exact ⟨_, exec_accepts rfl rfl ht hend, writeAt_wf hwf (by omega), readAt_writeAt hwf⟩
  case view =>
    refine ⟨fun hno => exec_refuses rfl rfl ht (if_neg (mt viewPermitted_iff.1 hno)), fun hyes => ?_⟩
    have hp := viewPermitted_iff.2 hyes
    refine ⟨fun hno => exec_refuses rfl rfl ht (setView_refuses hp hno), fun hargs => ?_⟩
    obtain ⟨m, hm⟩ := viewNamed_of_lt hargs.1
    have hbody : requestBody (.setView h n e d l k) s0 = _ := setView_passes hp (viewNamed_eq_some.1 hm) hargs
    refine judged_saving rfl rfl ht hbody fun hend m' hm' => ?_
    obtain rfl : m = m' := Option.some.inj (hm.symm.trans (viewNamed_eq_some.2 hm'))
    exact exec_accepts rfl rfl ht hend

end Sys2Proof.Machine
end

section
/-! PROOFS. RECALL (O36): its checks in order, the CUT removals, and the new move. -/

namespace Sys2Proof.Machine

/-! ## Checks in order, as an optional code -/

/-- A code is that of the first check that fails, and absent where all pass. -/
def firstFailing (c : Option RefusalCode) : List (Prop × RefusalCode) → Prop
  | [] => c = none
  | (ok, code) :: rest => (¬ ok → c = some code) ∧ (ok → firstFailing c rest)

theorem firstFailing_failing {b : Bool} {ok : Prop} {code : RefusalCode} (h : b = true ↔ ok) :
    firstFailing (failing b code) [(ok, code)] := by
  refine ⟨fun hno => ?_, fun hok => failing_eq_none.2 (h.2 hok)⟩
  rw [Bool.eq_false_iff.2 (mt h.1 hno)]
  rfl

theorem firstFailing_some {c : Option RefusalCode} {code : RefusalCode} (d : Option RefusalCode)
    (hc : c = some code) : (c <|> d) = some code := by
  rw [hc]
  rfl

theorem firstFailing_orElse {c d : Option RefusalCode} {r : List (Prop × RefusalCode)} :
    ∀ {l : List (Prop × RefusalCode)}, firstFailing c l → firstFailing d r → firstFailing (c <|> d) (l ++ r)
  | [], hc, hd => by
    rw [show c = none from hc]
    exact hd
  | _ :: _, ⟨hno, hyes⟩, hd => ⟨fun hn => firstFailing_some d (hno hn), fun hok => firstFailing_orElse (hyes hok) hd⟩

theorem firstFailing_pass : ∀ {l : List (Prop × RefusalCode)}, firstFailing none l → ∀ c ∈ l, c.1
  | [], _, _, hc => absurd hc List.not_mem_nil
  | d :: l, ⟨hno, hyes⟩, c, hc => by
    have hok : d.1 := Classical.not_not.1 fun hn => nomatch hno hn
    rcases List.mem_cons.1 hc with rfl | hc
    · exact hok
    · exact firstFailing_pass (hyes hok) c hc

/-- A request that refuses by the first failing check is judged by the checks. -/
theorem judged_of_firstFailing {h : Header} {s : State} {o : Host.Outcome State Fault Refusal} {P : Prop}
    {c : Option RefusalCode} (hno : ∀ code, c = some code → o = .next (refusedWith h code s)) (hyes : c = none → P) :
    ∀ {l : List (Prop × RefusalCode)}, firstFailing c l → judged h s o l P
  | [], hc => hyes hc
  | _ :: _, ⟨hn, hy⟩ => ⟨fun hbad => hno _ (hn hbad), fun hok => judged_of_firstFailing hno hyes (hy hok)⟩

/-! ## The arguments -/

/-- The axes a RECALL's filter names, whatever its kind. -/
def namedFilter (s : State) (f : FilterArg) : AxisSet := if f.kind = 0 then s.settings.fitted else f.axes

theorem filterSet_eq {s : State} {f : FilterArg} :
    filterSet s f = if f.kind ≤ 1 then some (namedFilter s f) else none := by
  obtain ⟨k, x⟩ := f
  rcases k with _ | _ | k
  · rfl
  · rfl
  · exact (if_neg (by simp)).symm

theorem cueOf_eq {c : CueArg} : cueOf c = if c.kind ≤ 2 then some (cueNumbered c) else none := by
  obtain ⟨k, t⟩ := c
  rcases k with _ | _ | _ | k
  · rfl
  · rfl
  · rfl
  · exact (if_neg (by simp)).symm

/-- The policy of an octet 0 or 1. -/
def policyNumbered (n : Nat) : Policy := if n = 1 then .cut else .queue

theorem policyOf_eq {n : Nat} : policyOf n = if n ≤ 1 then some (policyNumbered n) else none := by
  rcases n with _ | _ | n
  · rfl
  · rfl
  · exact (if_neg (by simp)).symm

theorem optionIf_isSome {α : Type} {ok : Prop} [Decidable ok] {v : α} :
    (if ok then some v else none).isSome = true ↔ ok := by
  split <;> simp_all

/-- The axes of the filter, judged first: those of ALL are fitted. -/
theorem axisSetCheck_filter {s : State} {f : FilterArg} (hk : f.kind ≤ 1) :
    firstFailing (axisSetCheck s (namedFilter s f))
      [(f.kind = 1 → allFitted s f.axes, .badAxis), (namedFilter s f ≠ 0#8, .badArgument)] := by
  have hfit : (f.kind = 1 → allFitted s f.axes) ↔ namedFilter s f &&& ~~~s.settings.fitted = 0#8 := by
    obtain hk | hk : f.kind = 0 ∨ f.kind = 1 := by omega
    · have hself : namedFilter s f = s.settings.fitted := if_pos hk
      rw [hself, BitVec.and_not_self, hk]
      exact iff_of_true nofun rfl
    · have haxes : namedFilter s f = f.axes := if_neg (by omega)
      rw [haxes, hk]
      exact ⟨fun h => h rfl, fun h _ => h⟩
  refine ⟨fun hno => axisSetCheck_badAxis (mt hfit.2 hno), fun hok => ⟨fun he => axisSetCheck_of_empty (Classical.not_not.1 he),
    fun hne => axisSetCheck_pass (hfit.1 hok) hne⟩⟩

theorem recallArguments_firstFailing {s : State} {b p v pol : Nat} {f : FilterArg} {c : CueArg} :
    firstFailing (recallArguments s b p f v c pol)
      [(f.kind = 1 → allFitted s f.axes, .badAxis),
       (f.kind ≤ 1 ∧ namedFilter s f ≠ 0#8 ∧ addressRange b p ∧ 25 ≤ v ∧ v ≤ 400 ∧ c.kind ≤ 2 ∧ pol ≤ 1, .badArgument),
       (c.kind = 1 → timecodeValid s.settings.rate c.timecode = true, .badTimecode)] := by
  have hargs : (addressOk b p && numberWithin 25 400 v && (cueOf c).isSome && (policyOf pol).isSome) = true ↔
      addressRange b p ∧ 25 ≤ v ∧ v ≤ 400 ∧ c.kind ≤ 2 ∧ pol ≤ 1 := by
    rw [Bool.and_eq_true, Bool.and_eq_true, Bool.and_eq_true, addressOk_iff, numberWithin_iff, cueOf_eq, policyOf_eq,
      optionIf_isSome, optionIf_isSome]
    simp only [and_assoc]
  have htime : (c.kind != 1 || timecodeValid s.settings.rate c.timecode) = true ↔
      (c.kind = 1 → timecodeValid s.settings.rate c.timecode = true) := by
    rw [Bool.or_eq_true, bne_iff_ne]
    exact Decidable.imp_iff_not_or.symm
  have hrest := firstFailing_orElse (firstFailing_failing (code := .badArgument) hargs)
    (firstFailing_failing (code := .badTimecode) htime)
  unfold recallArguments
  rw [filterSet_eq]
  by_cases hk : f.kind ≤ 1
  · rw [if_pos hk]
    obtain ⟨haxis, hset⟩ := firstFailing_orElse (axisSetCheck_filter (s := s) hk) hrest
    refine ⟨haxis, fun hok => ?_⟩
    obtain ⟨hempty, hrest⟩ := hset hok
    by_cases hne : namedFilter s f = 0#8
    · exact ⟨fun _ => hempty (Classical.not_not.2 hne), fun h => absurd hne h.2.1⟩
    · obtain ⟨hbad, htc⟩ := hrest hne
      exact ⟨fun hno => hbad fun h => hno ⟨hk, hne, h⟩, fun h => htc h.2.2⟩
  · rw [if_neg hk]
    exact ⟨fun hno => absurd (fun h1 => absurd (Nat.le_of_eq h1) hk) hno, fun _ =>
      ⟨fun _ => rfl, fun h => absurd h.1 hk⟩⟩

/-! ## The checks behind the resolution -/

theorem cutBy_policyNumbered {pol : Nat} {x : AxisSet} {m : Move} :
    cutBy (policyNumbered pol) x m = (pol == 1 && m.axes &&& x != 0#8) := by
  unfold cutBy policyNumbered shares
  by_cases h : pol = 1
  · rw [h]; rfl
  · rw [if_neg h, beq_false_of_ne h]; rfl

theorem cuePassed_iff {s : State} {c : CueArg} : cuePassed s (cueNumbered c) = true ↔ c.kind = 1 ∧
    s.timecode.run = .running ∧
      positionInDay s.settings.rate c.timecode ≤ positionInDay s.settings.rate s.timecode.counter := by
  unfold cueNumbered
  by_cases h0 : c.kind = 0
  · rw [if_pos h0, h0]
    exact iff_of_false Bool.false_ne_true (by simp)
  · rw [if_neg h0]
    by_cases h1 : c.kind = 1
    · rw [if_pos h1]
      simp [cuePassed, h1]
    · rw [if_neg h1]
      exact iff_of_false Bool.false_ne_true fun h => h1 h.1

theorem ownedBy_iff {s : State} {m : Master} {x : AxisSet} : (x &&& ~~~(ownedBy s m) == 0#8) = true ↔
    ∀ a, AxisSet.has x a = true → ownerOf s a = some m := by
  rw [beq_iff_eq, AxisSet.eq_zero_iff]
  simp [ownedBy]

theorem recordCheck_firstFailing {s : State} {m : Master} {n : Nat} : firstFailing (recordCheck s m n)
    [((recordAt s n).body ≠ none, .recordFree),
     (¬ ((recordAt s n).guarded = true ∧ keysRefuse (s.settings.views.get m).key (recordAt s n).key), .guarded)] :=
  firstFailing_orElse (firstFailing_failing Option.isSome_iff_ne_none)
    (firstFailing_failing (by rw [Bool.not_eq_true', ← Bool.not_eq_true, guardRefuses_iff]))

theorem recallChecks_firstFailing {s : State} {m : Master} {x : AxisSet} {c : CueArg} {pol : Nat} :
    firstFailing (recallChecks s m x (cueNumbered c) (policyNumbered pol))
      [(x ≠ 0#8, .emptyAxes),
       (∀ a, AxisSet.has x a = true → ownerOf s a = some m, .notOwner),
       (s.faults.safeStop = .normal, .faultStop),
       (s.bus.state = .running, .busStopped),
       (¬ (c.kind = 1 ∧ s.timecode.run = .running ∧
          positionInDay s.settings.rate c.timecode ≤ positionInDay s.settings.rate s.timecode.counter), .cuePassed),
       ((s.queue.filter fun m => !(pol == 1 && m.axes &&& x != 0#8)).length < 8, .queueFull)] := by
  refine firstFailing_orElse (firstFailing_failing bne_iff_ne) <|
    firstFailing_orElse (firstFailing_failing ownedBy_iff) <|
    firstFailing_orElse (firstFailing_failing beq_iff_eq) <|
    firstFailing_orElse (firstFailing_failing beq_iff_eq) <|
    firstFailing_orElse (firstFailing_failing ?_) (firstFailing_failing ?_)
  · rw [Bool.not_eq_true', ← Bool.not_eq_true, cuePassed_iff]
  · simp only [cutBy_policyNumbered, decide_eq_true_iff]

/-! ## The CUT removals -/

/-- The handoffs that the removal of some moves ends on an axis. -/
def leftBlend (l : List Move) (s : State) : PerAxis Blend := (l.foldl leaveAxes s).blend

theorem leaveAxes_blend (s : State) (m : Move) (a : Axis) : (leaveAxes s m).blend.get a =
    if (s.blend.get a).mode = .handoff ∧ (m.state = .running ∨ m.state = .gated) ∧ AxisSet.has m.axes a = true
    then (s.blend.get a).endHandoff else s.blend.get a := by
  have hlive : m.live = true ↔ m.state = .running ∨ m.state = .gated := by simp [Move.live]
  unfold leaveAxes
  by_cases hl : m.live = true
  · rw [if_pos hl]
    simp only [endHandoffs, mapAt, handoffAxes, PerAxis.get_ofFn, AxisSet.has_ofTest, Bool.and_eq_true, beq_iff_eq,
      hlive.1 hl, true_and, and_comm]
  · rw [if_neg hl, if_neg fun h => hl (hlive.2 h.2.1)]

theorem leaveAxes_foldl (l : List Move) (s : State) : l.foldl leaveAxes s = { s with blend := leftBlend l s } := by
  induction l generalizing s with
  | nil => rfl
  | cons m l ih =>
    unfold leftBlend
    rw [List.foldl_cons, ih]
    unfold leaveAxes
    split <;> rfl

theorem leftBlend_get (l : List Move) (s : State) (a : Axis) : (leftBlend l s).get a =
    if (s.blend.get a).mode = .handoff ∧ ∃ m ∈ l, (m.state = .running ∨ m.state = .gated) ∧ AxisSet.has m.axes a = true
    then (s.blend.get a).endHandoff else s.blend.get a := by
  induction l generalizing s with
  | nil => exact (if_neg (by simp)).symm
  | cons m l ih =>
    have hstep : (leftBlend (m :: l) s).get a = (leftBlend l (leaveAxes s m)).get a := rfl
    have hblend := leaveAxes_blend s m a
    rw [hstep, ih]
    simp only [List.mem_cons, exists_eq_or_imp]
    by_cases hmode : (s.blend.get a).mode = .handoff
    · by_cases hm : (m.state = .running ∨ m.state = .gated) ∧ AxisSet.has m.axes a = true
      · rw [hblend.trans (if_pos ⟨hmode, hm⟩)]
        refine (if_neg fun ⟨hlive, _⟩ => ?_).trans (if_pos ⟨hmode, .inl hm⟩).symm
        exact Mode.noConfusion (show Mode.live = Mode.handoff from hlive)
      · rw [hblend.trans (if_neg fun h => hm h.2)]
        simp only [hm, false_or]
    · rw [hblend.trans (if_neg fun h => hmode h.1), if_neg fun h => hmode h.1, if_neg fun h => hmode h.1]

theorem cutMoves_eq (p : Policy) (x : AxisSet) (s : State) : cutMoves p x s =
    { state := { s with blend := leftBlend (s.queue.filter (cutBy p x)) s
                        queue := s.queue.filter fun m => !(cutBy p x m) }
      posts := doneNotices s (fun _ => .cut) (s.queue.filter (cutBy p x)) } := by
  rw [cutMoves, leaveAxes_foldl, removeMoves_eq]
  rfl

/-! ## The new move -/

theorem idFrom_idAfter {n : Nat} (h : 1 ≤ n ∧ n ≤ 255) (j : Nat) : idFrom (idAfter n) j = idFrom n (j + 1) := by
  unfold idFrom idAfter
  split <;> omega

/-- The search for an id stops at the first that is not held, so all before it are held. -/
theorem freeId_idFrom (held : List Nat) (places : Nat) {n : Nat} (h : 1 ≤ n ∧ n ≤ 255) :
    ∃ k, freeId held places n = idFrom n k ∧ ∀ j < k, idFrom n j ∈ held := by
  have hzero : ∀ {n}, 1 ≤ n ∧ n ≤ 255 → idFrom n 0 = n := fun {n} hn => by unfold idFrom; omega
  induction places generalizing n with
  | zero => exact ⟨0, (hzero h).symm, fun _ hj => absurd hj (Nat.not_lt_zero _)⟩
  | succ places ih =>
    unfold freeId
    split
    · rename_i hheld
      obtain ⟨k, hk, hall⟩ := ih (idAfter_range n)
      refine ⟨k + 1, hk.trans (idFrom_idAfter h k), fun j hj => ?_⟩
      cases j with
      | zero => rw [hzero h]; exact List.contains_iff_mem.1 hheld
      | succ j => rw [← idFrom_idAfter h]; exact hall j (by omega)
    · exact ⟨0, (hzero h).symm, fun _ hj => absurd hj (Nat.not_lt_zero _)⟩

theorem idAfter_eq {n : Nat} (h : n ≤ 255) : idAfter n = if n = 255 then 1 else n + 1 := by
  unfold idAfter
  split <;> split <;> omega

theorem cueNumbered_now {c : CueArg} : (cueNumbered c == .now) = (c.kind == 0) := by
  obtain ⟨k, t⟩ := c
  rcases k with _ | _ | k <;> rfl

theorem moveAxes_eq (s : State) (n : Nat) (f : AxisSet) : moveAxes s n f =
    (recordAt s n).body.elim 0#8 fun w => w.axes &&& f &&& s.settings.fitted := by
  unfold moveAxes
  cases (recordAt s n).body <;> rfl

theorem recallMove_passes {m : Master} {b p v pol : Nat} {f : FilterArg} {c : CueArg} {s : State}
    (h : recallArguments s b p f v c pol = none) (hf : f.kind ≤ 1) (hc : c.kind ≤ 2) (hp : pol ≤ 1) :
    recallMove m b p f v c pol s =
      match resolve m b p s with
      | (s1, .fault code) => refuse s1 code
      | (s1, .found r) => recallResolved m r.record (namedFilter s1 f) v (cueNumbered c) (policyNumbered pol) s1 := by
  unfold recallMove
  rw [h, cueOf_eq, policyOf_eq, if_pos hc, if_pos hp]
  simp only [filterSet_eq, if_pos hf]
  rfl

theorem queueLaw_resolve {m : Master} {b p : Nat} {s : State} (h : queueLaw s) : queueLaw (resolve m b p s).1 := by
  rcases resolve_cases m b p s with ⟨c, he⟩ | ⟨e, _, _, he⟩ | ⟨r, _, _, he⟩ <;> rw [he] <;> exact h

theorem settings_of_resolve {m : Master} {b p : Nat} {s s1 : State} {x : Resolution}
    (hres : resolve m b p s = (s1, x)) : s1.settings = s.settings := by
  have hkeeps : (resolve m b p s).1.settings = s.settings :=
    resolve_keeps (g := State.settings) (fun _ _ => rfl) m b p s
  rw [hres] at hkeeps
  exact hkeeps

/-- Settles O36: the arguments, the record and the move are each a chain of checks, and the new id is the first free. -/
theorem recallChecksThenQueues : Obligations.RecallChecksThenQueues := by
  intro h b p f v c pol s s0 i ht hq filter
  refine judged_of_firstFailing (c := recallArguments s0 b p f v c pol) (fun code hcode => ?refused) (fun hpass => ?passed)
    recallArguments_firstFailing
  case refused =>
    refine exec_refuses rfl rfl ht ?_
    show recallMove h.link b p f v c pol s0 = _
    unfold recallMove
    rw [hcode]
  case passed =>
    intro s1 y hres
    have hargs := firstFailing_pass (hpass ▸ recallArguments_firstFailing)
    obtain ⟨hf, _, _, _, _, hc, hp⟩ := hargs (_, .badArgument) (List.mem_cons_of_mem _ List.mem_cons_self)
    have hbody : requestBody i s0 = _ := recallMove_passes hpass hf hc hp
    rw [hres] at hbody
    refine ⟨fun code hy => ?_, fun r hy => ?_⟩ <;> subst hy
    · obtain rfl := state_of_fault hres
      exact exec_refuses rfl rfl ht hbody
    have hfilter : namedFilter s1 f = filter := by
      unfold namedFilter
      rw [settings_of_resolve hres]
    have hq1 : queueLaw s1 := by
      have hlaw := queueLaw_resolve (m := h.link) (b := b) (p := p) hq
      rw [hres] at hlaw
      exact hlaw
    simp only [hfilter] at hbody
    intro old x position gone kept
    have hx : moveAxes s1 r.record filter = x := moveAxes_eq s1 r.record filter
    have hchecks := firstFailing_orElse (recordCheck_firstFailing (s := s1) (m := h.link) (n := r.record))
      (recallChecks_firstFailing (s := s1) (m := h.link) (x := x) (c := c) (pol := pol))
    refine judged_of_firstFailing (fun code hcode => ?_) (fun hnone => ?_) hchecks
    · refine exec_refusesIn rfl rfl ht (hbody.trans ?_)
      unfold recallResolved
      rw [hx, hcode]
    have hroom : kept.length < 8 :=
      firstFailing_pass (hnone ▸ hchecks) (_, .queueFull)
        (List.mem_append_right _ (.tail _ (.tail _ (.tail _ (.tail _ (.tail _ (.head _)))))))
    obtain ⟨_, _, _, hid⟩ := hq1
    have hcutBy : cutBy (policyNumbered pol) x = fun m => pol == 1 && m.axes &&& x != 0#8 :=
      funext fun m => cutBy_policyNumbered
    have hcut : cutMoves (policyNumbered pol) x s1 =
        { state := { s1 with blend := leftBlend gone s1, queue := kept }, posts := doneNotices s1 (fun _ => .cut) gone } := by
      rw [cutMoves_eq, hcutBy]
    unfold recallResolved at hbody
    simp only [hx, hnone] at hbody
    unfold recallAccepted at hbody
    rw [hcut, hcutBy] at hbody
    obtain ⟨k, hk, hheld⟩ := freeId_idFrom (kept.map Move.id) 255 hid
    refine ⟨freeId (kept.map Move.id) 255 s1.nextMoveId, k, leftBlend gone s1, ?_, hk,
      freeId_not_held hid (by rwa [List.length_map]), hheld, fun a => ?_⟩
    · have hexec := exec_acceptsWith rfl rfl ht hbody
      rw [← idAfter_eq (freeId_range _ _ hid).2, ← cueNumbered_now]
      exact hexec
    · exact leftBlend_get gone s1 a

end Sys2Proof.Machine
end

section
/-! PROOFS. The requests on one move (O37), and the paths of a segment (O38). -/

namespace Sys2Proof.Machine

/-! ## A move by its id -/

section OneMove
variable {s : State} {m : Move}

theorem findMove_of_mem (hn : (s.queue.map Move.id).Nodup) (hm : m ∈ s.queue) : findMove s m.id = some m := by
  unfold findMove
  cases hf : s.queue.find? fun q => q.id == m.id with
  | none => exact absurd (List.find?_eq_none.1 hf m hm) (by simp)
  | some q =>
    have hid : q.id = m.id := by simpa using List.find?_some hf
    rw [eq_of_nodup_map hn (List.mem_of_find?_eq_some hf) hm hid]

theorem filter_id (hn : (s.queue.map Move.id).Nodup) (hm : m ∈ s.queue) :
    (s.queue.filter fun q => q.id == m.id) = [m] := by
  have hself : (s.queue.filter fun q => q.id == m.id) = s.queue.filter (· == m) :=
    List.filter_congr fun q hq => by
      rw [Bool.eq_iff_iff, beq_iff_eq, beq_iff_eq]
      exact ⟨eq_of_nodup_map hn hq hm, congrArg Move.id⟩
  rw [hself, List.filter_beq, (nodup_of_map hn).count, if_pos hm]
  rfl

/-- The move of an id written in its place is the move rewritten by a rule. -/
theorem writeMove_eq (hn : (s.queue.map Move.id).Nodup) (hm : m ∈ s.queue) (f : Move → Move) (hf : (f m).id = m.id) :
    writeMove (f m) s = { s with queue := rewriteMove m.id f s.queue } := by
  have hqueue : replaceMove m.id (fun _ => f m) s.queue = rewriteMove m.id f s.queue := by
    refine List.map_congr_left fun q hq => ?_
    split
    · rename_i hid
      rw [eq_of_nodup_map hn hq hm hid]
    · rfl
  unfold writeMove
  rw [hf, hqueue]

end OneMove

section OnMove
variable {r : Master} {act : Move → State → Response} {s : State} {m : Move}

theorem onMove_unknown {id : Nat} (h : ∀ m ∈ s.queue, m.id ≠ id) : onMove r id act s = refuse s .unknownMove := by
  have hnone : findMove s id = none := List.find?_eq_none.2 fun m hm => by simp [h m hm]
  unfold onMove
  rw [hnone]

theorem mayAct_iff : mayAct s r m = true ↔ m.requester = r ∨ actsAsSupervisor s r = true := by
  rw [mayAct, Bool.or_eq_true, beq_iff_eq, eq_comm]

theorem onMove_refuses (hn : (s.queue.map Move.id).Nodup) (hm : m ∈ s.queue)
    (h : ¬ (m.requester = r ∨ actsAsSupervisor s r = true)) : onMove r m.id act s = refuse s .notPermitted := by
  unfold onMove
  rw [findMove_of_mem hn hm]
  exact if_neg (mt mayAct_iff.1 h)

theorem onMove_acts (hn : (s.queue.map Move.id).Nodup) (hm : m ∈ s.queue)
    (h : m.requester = r ∨ actsAsSupervisor s r = true) : onMove r m.id act s = act m s := by
  unfold onMove
  rw [findMove_of_mem hn hm]
  exact if_pos (mayAct_iff.2 h)

end OnMove

/-- What SPEED does on its move. -/
def speedOn (v : Nat) (m : Move) (s : State) : Response :=
  if numberWithin 25 400 v then accept (writeMove { m with speed := v } s) .none else refuse s .badArgument

/-- What ABORT does on its move. -/
def abortOn (m : Move) (s : State) : Response := acceptWith (abortMove m s) .none

/-- A request on one move is refused where its master may not act on the move, and otherwise acts. -/
theorem judged_onMove {i : Instr} {h : Header} {s s0 : State} {m : Move} {act : Move → State → Response}
    {l : List (Prop × RefusalCode)} {P : Prop} (hi : requestHeader i = some h) (hr : isReset i = false)
    (ht : taken i s s0) (hn : (s0.queue.map Move.id).Nodup) (hm : m ∈ s0.queue)
    (hb : requestBody i s0 = onMove h.link m.id act s0)
    (hP : requestBody i s0 = act m s0 → judged h s0 (exec i s) l P) :
    judged h s0 (exec i s) ((m.requester = h.link ∨ actsAsSupervisor s0 h.link = true, .notPermitted) :: l) P :=
  ⟨fun hno => exec_refuses hi hr ht (hb.trans (onMove_refuses hn hm hno)),
    fun hyes => hP (hb.trans (onMove_acts hn hm hyes))⟩

/-! ## GO -/

theorem goSatisfies_iff {m : Move} :
    goSatisfies m = true ↔ m.state = .queued ∧ m.cue = .go ∧ m.satisfied = false := by
  simp [goSatisfies, and_assoc]

/-! ## ABORT -/

/-- The rule by which an ABORT that leaves a move STOPPING rewrites the moves. -/
def stopRule (id : Nat) (w : Move) : Move :=
  if w.id = id then { w with state := .stopping, stopOutcome := some .aborted } else w

/-- The outcome of a move that an ABORT of another, or of itself, leaves without axes. -/
def abortOutcome (id : Nat) (w : Move) : MoveOutcome := if w.id = id then .aborted else .withdrawn

theorem stopRule_keeps (id : Nat) (w : Move) : (stopRule id w).id = w.id ∧ (stopRule id w).axes = w.axes ∧
    (stopRule id w).requester = w.requester ∧ (stopRule id w).record = w.record := by
  unfold stopRule
  split <;> exact ⟨rfl, rfl, rfl, rfl⟩

theorem movesGone_map {f : Move → Move} (hid : ∀ m, (f m).id = m.id) (q r : List Move) :
    movesGone (q.map f) r = (movesGone q r).map f := by
  simp only [movesGone, List.filter_map, Function.comp_def, hid]

theorem doneNotices_map {f : Move → Move} {o : Move → MoveOutcome} (s : State) (l : List Move)
    (hf : ∀ m, (f m).id = m.id ∧ (f m).requester = m.requester ∧ (f m).record = m.record ∧ o (f m) = o m) :
    doneNotices s o (l.map f) = doneNotices s o l := by
  unfold doneNotices
  rw [List.flatMap_map]
  refine congrArg (List.flatMap · l) (funext fun m => ?_)
  obtain ⟨hid, hrequester, hrecord, ho⟩ := hf m
  rw [hid, hrequester, hrecord, ho]

theorem handoffAxes_iff {s : State} {x : AxisSet} {a : Axis} : AxisSet.has (handoffAxes s x) a = true ↔
    AxisSet.has x a = true ∧ (s.blend.get a).mode = .handoff := by
  rw [handoffAxes, AxisSet.has_ofTest, Bool.and_eq_true, beq_iff_eq]

theorem abortModes_get (s : State) (x : AxisSet) (a : Axis) : (abortModes x s).get a =
    if AxisSet.has x a = true then
      if (s.blend.get a).mode = .handoff then (s.blend.get a).endHandoff else (s.blend.get a).toHold
    else s.blend.get a := by
  simp only [abortModes, mapAt, PerAxis.get_ofFn, AxisSet.has_and, AxisSet.has_not, Bool.and_eq_true,
    Bool.not_eq_true', ← Bool.not_eq_true, handoffAxes_iff]
  by_cases hx : AxisSet.has x a = true <;> by_cases hm : (s.blend.get a).mode = .handoff <;> simp [hx, hm]

/-- An ABORT that leaves a move STOPPING, whole. -/
theorem stopMove_spec {s : State} {m : Move} (hn : (s.queue.map Move.id).Nodup) (hm : m ∈ s.queue) :
    ∃ q, stopMove m s =
      { state := { s with blend := abortModes m.axes s, queue := q }
        posts := doneNotices s (abortOutcome m.id) (movesGone s.queue q) } ∧
      movesWithout (fun a => AxisSet.has m.axes a = true ∧ (s.blend.get a).mode = .handoff) (stopRule m.id) s.queue q := by
  have hids : (s.queue.map (stopRule m.id)).map Move.id = s.queue.map Move.id := by
    rw [List.map_map]
    exact List.map_congr_left fun w _ => (stopRule_keeps m.id w).1
  have hwrite : writeMove { m with state := .stopping, stopOutcome := some .aborted }
      { s with blend := abortModes m.axes s } =
      { s with blend := abortModes m.axes s, queue := s.queue.map (stopRule m.id) } :=
    writeMove_eq (s := { s with blend := abortModes m.axes s }) hn hm
      (fun q => { q with state := .stopping, stopOutcome := some .aborted }) rfl
  have hstop : stopMove m s = withdrawWith (handoffAxes s m.axes) (abortOutcome m.id)
      { s with blend := abortModes m.axes s, queue := s.queue.map (stopRule m.id) } := by
    rw [← hwrite]
    rfl
  have hposts := withdrawWith_posts (x := handoffAxes s m.axes) (o := abortOutcome m.id)
    (s := { s with blend := abortModes m.axes s, queue := s.queue.map (stopRule m.id) })
    (hids.symm ▸ hn) fun _ => rfl
  refine ⟨_, ?_, movesWithout_withdraw s.queue (fun a => handoffAxes_iff.symm) (fun w => (stopRule_keeps _ w).1)
    fun w => (stopRule_keeps _ w).2.1⟩
  have hgone : ∀ r, doneNotices s (abortOutcome m.id) (movesGone (s.queue.map (stopRule m.id)) r) =
      doneNotices s (abortOutcome m.id) (movesGone s.queue r) := fun r => by
    rw [movesGone_map fun w => (stopRule_keeps _ w).1]
    refine doneNotices_map s _ fun w => ?_
    obtain ⟨hid, _, hrequester, hrecord⟩ := stopRule_keeps m.id w
    exact ⟨hid, hrequester, hrecord, by rw [abortOutcome, abortOutcome, hid]⟩
  rw [hstop, ← hgone]
  exact congrArg (Emit.mk _) hposts

/-- Settles O37: the id names one move, so writing its record in its place is the rule the statement gives. -/
theorem requestsActOnOneMove : Obligations.RequestsActOnOneMove := by
  refine fun h id v s s0 => ⟨fun i hi ht hnone => ?unknown, ?_⟩
  case unknown =>
    simp only [List.mem_cons, List.not_mem_nil, or_false] at hi
    have hrefuses : ∀ act, requestHeader i = some h → isReset i = false → requestBody i s0 = onMove h.link id act s0 →
        exec i s = .next (refusedWith h .unknownMove s0) := fun act hh hr hb =>
      exec_refuses hh hr ht (hb.trans (onMove_unknown hnone))
    rcases hi with rfl | rfl | rfl
    · exact hrefuses goOn rfl rfl rfl
    · exact hrefuses (speedOn v) rfl rfl rfl
    · exact hrefuses abortOn rfl rfl rfl
  rintro m hm rfl hn
  intro may
  refine ⟨fun ht => judged_onMove rfl rfl ht hn hm rfl fun hbody => ?go,
    fun ht => judged_onMove (act := speedOn v) rfl rfl ht hn hm rfl fun hbody => ?speed,
    fun ht => judged_onMove (act := abortOn) rfl rfl ht hn hm rfl fun hbody => ?abort⟩
  case go =>
    refine ⟨fun hg => exec_accepts rfl rfl ht (hbody.trans (if_pos hg)), fun hg hc => ?_, fun hg hc => ?_⟩
    · rw [← writeMove_eq hn hm (fun q => { q with satisfied := true }) rfl]
      exact exec_accepts rfl rfl ht (hbody.trans ((if_neg (Bool.eq_false_iff.1 hg)).trans (if_pos (goSatisfies_iff.2 hc))))
    · rw [← writeMove_eq hn hm (fun q => { q with goPending := true }) rfl]
      exact exec_accepts rfl rfl ht
        (hbody.trans ((if_neg (Bool.eq_false_iff.1 hg)).trans (if_neg (mt goSatisfies_iff.1 hc))))
  case speed =>
    refine ⟨fun hv => exec_refuses rfl rfl ht (hbody.trans (if_neg (mt numberWithin_iff.1 hv))), fun hv => ?_⟩
    rw [← writeMove_eq hn hm (fun q => { q with speed := v }) rfl]
    exact exec_accepts rfl rfl ht (hbody.trans (if_pos (numberWithin_iff.2 hv)))
  case abort =>
    have hbody' : requestBody (.abort h m.id) s0 = acceptWith (abortMove m s0) .none := hbody
    refine ⟨fun hs => ?_, fun hs => ?_, fun hs => ?_⟩
    · rw [show abortMove m s0 = quiet s0 by unfold abortMove; rw [hs]] at hbody'
      exact exec_accepts rfl rfl ht hbody'
    · rw [show abortMove m s0 = removeMoves (fun q => q.id == m.id) (fun _ => .aborted) s0 by
        unfold abortMove; rw [hs], removeMoves_eq, filter_id hn hm] at hbody'
      exact exec_acceptsWith rfl rfl ht hbody'
    · intro handing
      obtain ⟨q, hstop, hwithout⟩ := stopMove_spec hn hm
      rw [show abortMove m s0 = stopMove m s0 by unfold abortMove; rcases hs with hs | hs <;> rw [hs], hstop] at hbody'
      refine ⟨_, q, exec_acceptsWith rfl rfl ht hbody', hwithout, fun a => ⟨fun ⟨hx, hmode⟩ => ?_, fun hx hno => ?_,
        fun hx => ?_⟩⟩
      · rw [abortModes_get, if_pos hx, if_pos hmode]
        rfl
      · rw [abortModes_get, if_pos hx, if_neg fun hmode => hno ⟨hx, hmode⟩]
        rfl
      · rw [abortModes_get, if_neg (Bool.eq_false_iff.1 hx)]

end Sys2Proof.Machine
end

section
/-! PROOFS. The paths of a segment (O38), and the preset step (O39). -/

namespace Sys2Proof.Machine

/-! ## The length of a segment -/

theorem ceilDiv_le_iff {n d l : Nat} (hd : 1 ≤ d) : ceilDiv n d ≤ l ↔ n ≤ l * d := by
  rw [ceilDiv, ← Nat.lt_succ_iff, Nat.div_lt_iff_lt_mul hd, Nat.succ_mul]
  omega

/-! ## The preset position -/

/-- A share c of L of a distance lies between none of it and the whole. -/
theorem tdiv_share {d c l : Int} (hl : 0 < l) (hc : 0 ≤ c) (hcl : c ≤ l) :
    min 0 d ≤ (d * c).tdiv l ∧ (d * c).tdiv l ≤ max 0 d := by
  have hshare : ∀ {d : Int}, 0 ≤ d → 0 ≤ (d * c).tdiv l ∧ (d * c).tdiv l ≤ d := fun {d} hd => by
    have hprod := Int.mul_nonneg hd hc
    rw [Int.tdiv_eq_ediv_of_nonneg hprod]
    exact ⟨Int.ediv_nonneg hprod (Int.le_of_lt hl), Int.ediv_le_of_le_mul hl (Int.mul_le_mul_of_nonneg_left hcl hd)⟩
  rcases Int.le_total 0 d with hd | hd
  · obtain ⟨hlo, hhi⟩ := hshare hd
    omega
  · obtain ⟨hlo, hhi⟩ := hshare (d := -d) (by omega)
    rw [Int.neg_mul, Int.neg_tdiv] at hlo hhi
    omega

/-- The cubic share of EASE is between 0 and the whole. -/
theorem easeShare_bounds {e l : Int} (he : 0 ≤ e) (hel : e ≤ l) :
    0 ≤ 3 * e ^ 2 * l - 2 * e ^ 3 ∧ 3 * e ^ 2 * l - 2 * e ^ 3 ≤ l ^ 3 := by
  have hlow : 3 * e ^ 2 * l - 2 * e ^ 3 = e ^ 2 * (3 * l - 2 * e) := by grind
  have hhigh : l ^ 3 - (3 * e ^ 2 * l - 2 * e ^ 3) = (l - e) ^ 2 * (l + 2 * e) := by grind
  have hlow0 : 0 ≤ e ^ 2 * (3 * l - 2 * e) := Int.mul_nonneg (Int.pow_nonneg he) (by omega)
  have hhigh0 : 0 ≤ (l - e) ^ 2 * (l + 2 * e) := Int.mul_nonneg (Int.pow_nonneg (by omega)) (by omega)
  omega

theorem presetPosition_within (sh : Shape) (p : Path) {e l : Nat} (hl : 1 ≤ l) (he : e ≤ l) :
    min p.start p.target ≤ presetPosition sh p e l ∧ presetPosition sh p e l ≤ max p.start p.target := by
  have hbounds : ∀ {c m : Int}, 0 < m → 0 ≤ c → c ≤ m → min p.start p.target ≤ p.start + ((p.target - p.start) * c).tdiv m ∧
      p.start + ((p.target - p.start) * c).tdiv m ≤ max p.start p.target := fun {c m} hm hc hcm => by
    obtain ⟨hlo, hhi⟩ := tdiv_share (d := p.target - p.start) hm hc hcm
    omega
  have hpos : (0 : Int) < l := by omega
  cases sh with
  | linear => exact hbounds hpos (Int.natCast_nonneg e) (by omega)
  | ease =>
    obtain ⟨hlo, hhi⟩ := easeShare_bounds (Int.natCast_nonneg e) (Int.ofNat_le.2 he)
    exact hbounds (Int.pow_pos hpos) hlo hhi
  | dwell => exact ⟨Int.min_le_left _ _, Int.le_max_left _ _⟩

/-- Settles O38: the length is a ceiling, and each profile adds a share of the distance to the start. -/
theorem segmentsRunFromStartToTarget : Obligations.SegmentsRunFromStartToTarget := by
  refine ⟨fun d v hv => ?length, fun sh p e l hl he => ⟨rfl, rfl, ?start, ?linearEnd, ?easeEnd, rfl,
    presetPosition_within sh p hl he⟩⟩
  case length =>
    refine ⟨Nat.le_max_left _ _, (ceilDiv_le_iff hv).1 (Nat.le_max_right _ _), fun l hl hcover => ?_⟩
    exact Nat.max_le.2 ⟨hl, (ceilDiv_le_iff hv).2 hcover⟩
  case start => cases sh <;> simp [presetPosition]
  case linearEnd =>
    show p.start + ((p.target - p.start) * (l : Int)).tdiv l = _
    rw [Int.mul_tdiv_cancel _ (by omega)]
    omega
  case easeEnd =>
    have hwhole : 3 * (l : Int) ^ 2 * l - 2 * (l : Int) ^ 3 = (l : Int) ^ 3 := by grind
    show p.start + ((p.target - p.start) * (3 * (l : Int) ^ 2 * l - 2 * (l : Int) ^ 3)).tdiv ((l : Int) ^ 3) = _
    rw [hwhole, Int.mul_tdiv_cancel _ (Int.ne_of_gt (Int.pow_pos (by omega)))]
    omega

/-! ## Keyframes -/

theorem keyframeAt_eq {s : State} {m : Move} {body : RecordBody} (hbody : (recordAt s m.record).body = some body)
    (n : Nat) : keyframeAt s m n = body.keyframes[n]? := by
  unfold keyframeAt
  rw [hbody]
  rfl

theorem gatedKeyframe_eq (m : Move) : gatedKeyframe m = if m.segment = none then 0 else m.keyframe.getD 0 + 1 := by
  unfold gatedKeyframe
  split
  · rename_i h; rw [if_pos h]
  · rename_i h; rw [if_neg (by rw [h]; exact Option.some_ne_none _)]

/-- The preset positions that a segment writes on an axis. -/
theorem writePresets_get (x : AxisSet) (g : Segment) (s : State) (a : Axis) : (writePresets x g s).blend.get a =
    { s.blend.get a with
      preset := match if AxisSet.has x a then g.paths.get a else none with
        | some p => presetPosition g.shape p g.elapsed g.length
        | none => (s.blend.get a).preset } := by
  show (PerAxis.ofFn _).get a = _
  rw [PerAxis.get_ofFn]
  cases (if AxisSet.has x a then g.paths.get a else none) <;> rfl

theorem begin_beginsKeyframe (k : PerAxis Int) (n : Nat) (kf : Keyframe) (m : Move) (s : State) :
    beginsKeyframe k n kf m s (begin k n kf m s) := by
  have hblend : ∀ a, (begin k n kf m s).blend.get a = { s.blend.get a with
      preset := match if AxisSet.has m.axes a then (newSegment s k kf m).next.paths.get a else none with
        | some p => presetPosition kf.shape p 1 (segmentLength kf.duration m.speed)
        | none => (s.blend.get a).preset } := writePresets_get _ _ _
  refine ⟨(newSegment s k kf m).next, (begin k n kf m s).blend, rfl, rfl, rfl, rfl, fun a => ⟨fun hx => ?_,
    fun target hx htarget => ?_⟩⟩
  · have hpath : (newSegment s k kf m).next.paths.get a = none := by
      show (PerAxis.ofFn _).get a = none
      rw [PerAxis.get_ofFn, if_neg (Bool.eq_false_iff.1 hx)]
    refine ⟨hpath, ?_⟩
    rw [hblend, if_neg (Bool.eq_false_iff.1 hx)]
  · have hpath : (newSegment s k kf m).next.paths.get a = some { start := startOf s k a, target := target } := by
      show (PerAxis.ofFn _).get a = _
      rw [PerAxis.get_ofFn, if_pos hx, pathOf, htarget]
      rfl
    refine ⟨hpath, ?_⟩
    rw [hblend, if_pos hx, hpath]
    rfl

/-! ## The first pass -/

theorem finish_eq (m : Move) (s : State) : finish m s =
    { state := { s with
        queue := s.queue.filter fun q => q.id != m.id
        blend := PerAxis.ofFn fun a =>
          let b := s.blend.get a
          if AxisSet.has m.axes a = true ∧ b.mode = .handoff
          then { b with mode := .live, base := b.live, trim := 0, weight := 0 } else b }
      posts := doneNotices s (fun _ => .done) (s.queue.filter fun q => q.id == m.id) } := by
  have hblend : mapAt (handoffAxes s m.axes) Blend.endHandoff s.blend = PerAxis.ofFn fun a =>
      let b := s.blend.get a
      if AxisSet.has m.axes a = true ∧ b.mode = .handoff
      then { b with mode := .live, base := b.live, trim := 0, weight := 0 } else b :=
    PerAxis.ext_get fun a => by simp only [mapAt, PerAxis.get_ofFn, handoffAxes_iff]; rfl
  unfold finish endHandoffs
  rw [hblend, removeMoves_eq]
  rfl

theorem gateOpen_iff {kf : Keyframe} {m : Move} : gateOpen kf m = true ↔ kf.gate = false ∨ m.goPending = true := by
  rw [gateOpen, Bool.or_eq_true, Bool.not_eq_true']

theorem gateOpen_false {kf : Keyframe} {m : Move} (hg : kf.gate = true) (hgo : m.goPending = false) :
    gateOpen kf m = false := by
  rw [gateOpen, hg, hgo]
  rfl

/-- What the first pass does with a move, by the move's state and place in its segment. -/
theorem takeMove_firstPass (k : PerAxis Int) (m : Move) (s : State) : firstPassOnMove k m s := by
  refine ⟨fun hs => ?stands, fun hs hgo => ?gated, fun g hs hg hlt => ?advances, fun body hbody => ?_⟩
  case stands =>
    unfold takeMove
    rcases hs with hs | hs <;> rw [hs] <;> rfl
  case gated =>
    unfold takeMove
    rw [hs]
    show (match keyframeAt s m (gatedKeyframe m) with | none => _ | some kf => if m.goPending then _ else _) = _
    rw [hgo]
    cases keyframeAt s m (gatedKeyframe m) <;> rfl
  case advances =>
    have htake : takeMove k m s = quiet (advance m g s) := by
      unfold takeMove
      rw [hs, hg]
      exact if_pos hlt
    exact ⟨_, htake, writePresets_get _ _ _⟩
  intro n
  refine ⟨fun kf hs hgo hkf => ?opens, fun g hs hg hle => ?_⟩
  case opens =>
    have htake : takeMove k m s = quiet (begin k (gatedKeyframe m) kf { m with goPending := false } s) := by
      unfold takeMove
      rw [hs]
      show (match keyframeAt s m (gatedKeyframe m) with | none => _ | some kf => if m.goPending then _ else _) = _
      rw [keyframeAt_eq hbody, gatedKeyframe_eq, show body.keyframes[_]? = some kf from hkf, hgo]
      rfl
    rw [htake, gatedKeyframe_eq]
    exact ⟨rfl, begin_beginsKeyframe _ _ _ _ _⟩
  have htake : takeMove k m s = boundary k m s := by
    unfold takeMove
    rw [hs, hg]
    exact if_neg (Nat.not_lt.2 hle)
  rw [htake]
  refine ⟨fun hlast => ?ends, fun kf hkf => ⟨fun hgate hgo => ?gates, fun hopen => ?begins⟩⟩
  case ends =>
    rw [boundary, keyframeAt_eq hbody, List.getElem?_eq_none hlast]
    exact finish_eq m s
  case gates =>
    rw [boundary, keyframeAt_eq hbody, show body.keyframes[m.keyframe.getD 0 + 1]? = some kf from hkf]
    exact if_neg (Bool.eq_false_iff.1 (gateOpen_false hgate hgo))
  case begins =>
    have hbegin : boundary k m s = quiet (begin k n kf (m.spendGo kf) s) := by
      rw [boundary, keyframeAt_eq hbody, show body.keyframes[m.keyframe.getD 0 + 1]? = some kf from hkf]
      exact if_pos (gateOpen_iff.2 hopen)
    rw [hbegin]
    exact ⟨rfl, begin_beginsKeyframe _ _ _ _ _⟩

/-! ## The start of a move -/

theorem toPreset_eq (s : State) (x : AxisSet) : mapAt x Blend.toPreset s.blend = PerAxis.ofFn fun a =>
    let b := s.blend.get a
    if AxisSet.has x a = true ∧ b.mode ≠ .trim then { b with mode := .preset, trim := 0, weight := 0 } else b := by
  refine PerAxis.ext_get fun a => ?_
  simp only [mapAt, PerAxis.get_ofFn, Blend.toPreset]
  by_cases hx : AxisSet.has x a = true <;> by_cases hm : (s.blend.get a).mode = .trim <;> simp [hx, hm]

/-- The modes at a move's start leave the start positions. -/
theorem startPosition_toPreset (s : State) (x : AxisSet) (k : PerAxis Int) (a : Axis) :
    startPosition { s with blend := mapAt x Blend.toPreset s.blend } k a = startOf s k a := by
  have htrim : (if ((mapAt x Blend.toPreset s.blend).get a).mode = .trim
      then ((mapAt x Blend.toPreset s.blend).get a).trim else 0) =
      if (s.blend.get a).mode = .trim then (s.blend.get a).trim else 0 := by
    simp only [mapAt, PerAxis.get_ofFn, Blend.toPreset]
    by_cases hx : AxisSet.has x a = true <;> by_cases hm : (s.blend.get a).mode = .trim <;> simp [hx, hm]
  show _ - (if ((mapAt x Blend.toPreset s.blend).get a).mode = .trim
    then ((mapAt x Blend.toPreset s.blend).get a).trim else 0) = _
  rw [htrim]
  rfl

theorem startMove_moveStarts (k : PerAxis Int) (m : Move) (s : State) : moveStarts k m s := by
  intro body kf hbody hkf e moded told
  have hmoded : { s with blend := mapAt m.axes Blend.toPreset s.blend } = moded := by
    rw [toPreset_eq]
  have hstart : e = if gateOpen kf m then
      { state := begin k 0 kf (m.spendGo kf) moded, posts := startedPosts m .running moded }
    else
      { state := presetStarts k m.axes (writeMove { m with state := .gated, keyframe := some 0 } moded)
        posts := startedPosts m .gated moded } := by
    show startMove k m s = _
    unfold startMove
    rw [keyframeAt_eq hbody, hkf, ← hmoded]
  refine ⟨fun hopen => ?begins, fun hgate hgo => ?gates⟩
  case begins =>
    rw [hstart, if_pos (gateOpen_iff.2 hopen)]
    exact ⟨rfl, begin_beginsKeyframe _ _ _ _ _⟩
  case gates =>
    have hpreset : ∀ a, startPosition (writeMove { m with state := .gated, keyframe := some 0 } moded) k a =
        startOf s k a := fun a => by
      rw [← startPosition_toPreset s m.axes, hmoded]
      rfl
    rw [hstart, if_neg (Bool.eq_false_iff.1 (gateOpen_false hgate hgo)), presetStarts]
    simp only [hpreset]
    rfl

/-! ## The second pass -/

theorem eligible_iff {x : AxisSet} {m : Move} : eligible x m = true ↔
    m.state = .queued ∧ m.satisfied = true ∧ m.axes &&& x = 0#8 := by
  simp [eligible, shares, and_assoc]

theorem andThen_quiet (s : State) (f : State → Emit) : (quiet s).andThen f = f s := rfl

/-- Settles O39: each pass is its function's own equation, read by the state of the move. -/
theorem presetStepTakesAndStartsMoves : Obligations.PresetStepTakesAndStartsMoves := by
  refine ⟨fun _ _ => rfl, fun k m s => ⟨takeMove_firstPass k m s, startMove_moveStarts k m s⟩, fun _ _ _ => rfl,
    fun k x m l s => ?_⟩
  intro starts
  refine ⟨fun hs => ?_, fun hs => ?_⟩
  · rw [startPass, eligible_iff.2 hs]
    rfl
  · rw [startPass, Bool.eq_false_iff.2 (mt eligible_iff.1 hs)]
    rfl

end Sys2Proof.Machine
end

section
/-! PROOFS. The mode requests (O40) and SET COUPLING (O41). -/

namespace Sys2Proof.Machine

/-! ## Verdicts of a mode request -/

theorem inActiveMove_iff {s : State} {a : Axis} : inActiveMove s a = true ↔
    ∃ m ∈ s.queue, m.state ≠ .queued ∧ AxisSet.has m.axes a = true := by
  simp [inActiveMove, Move.active]

theorem inLiveMove_iff {s : State} {a : Axis} : inLiveMove s a = true ↔
    ∃ m ∈ s.queue, (m.state = .running ∨ m.state = .gated) ∧ AxisSet.has m.axes a = true := by
  simp [inLiveMove, Move.live]

theorem askedMode_isSome {n : Nat} : (askedMode n).isSome = true ↔ n ≤ 2 := by
  rcases n with _ | _ | _ | n
  · exact iff_of_true rfl (by decide)
  · exact iff_of_true rfl (by decide)
  · exact iff_of_true rfl (by decide)
  · exact iff_of_false Bool.false_ne_true (by omega)

theorem liveVerdict_goesLive (s : State) (a : Axis) : (liveVerdict s a).outcome = .live ∧
    goesLive s a (s.blend.get a) (liveVerdict s a).blend ((liveVerdict s a).leaves = true) := by
  unfold liveVerdict
  split
  · rename_i hl
    exact ⟨rfl, fun _ => ⟨rfl, Bool.false_ne_true⟩, fun hn => absurd hl hn⟩
  · rename_i hn
    exact ⟨rfl, fun hl => absurd hl hn, fun _ => ⟨rfl, inActiveMove_iff⟩⟩

theorem takeLiveVerdict_held {s : State} {a : Axis} {n : Nat}
    (hm : (s.blend.get a).mode = .preset ∨ (s.blend.get a).mode = .trim) (hh : inLiveMove s a = true) :
    takeLiveVerdict n s a = .keep .handoff { s.blend.get a with
      mode := .handoff, weight := 0, step := handoffStep n, live := firstLiveTrack s a } := by
  unfold takeLiveVerdict
  rcases hm with hm | hm <;> rw [hm] <;> exact if_pos hh

theorem takeLiveVerdict_handoff {s : State} {a : Axis} {n : Nat} (hm : (s.blend.get a).mode = .handoff) :
    takeLiveVerdict n s a = .keep .handoff { s.blend.get a with step := handoffStep n } := by
  unfold takeLiveVerdict
  rw [hm]

theorem takeLiveVerdict_live {s : State} {a : Axis} {n : Nat}
    (hm : (s.blend.get a).mode = .hold ∨ (s.blend.get a).mode = .live ∨
      (((s.blend.get a).mode = .preset ∨ (s.blend.get a).mode = .trim) ∧ ¬ inLiveMove s a = true)) :
    takeLiveVerdict n s a = liveVerdict s a := by
  unfold takeLiveVerdict
  rcases hm with hm | hm | ⟨hm | hm, hh⟩ <;> rw [hm]
  · exact if_neg hh
  · exact if_neg hh

/-! ## A mode request taken -/

theorem modeRequest_firstFailing {s : State} {x : AxisSet} {ok : Bool} {P : Prop} (hP : ok = true ↔ P) :
    firstFailing (axisSetCheck s x <|> failing ok .badArgument <|> failing (s.faults.safeStop == .normal) .faultStop)
      [(allFitted s x, .badAxis), (x ≠ 0#8 ∧ P, .badArgument), (s.faults.safeStop = .normal, .faultStop)] := by
  have hrest := firstFailing_orElse (firstFailing_failing (b := ok) (code := .badArgument) hP)
    (firstFailing_failing (code := .faultStop) (beq_iff_eq (a := s.faults.safeStop) (b := .normal)))
  refine ⟨fun hf => firstFailing_some _ (axisSetCheck_badAxis hf), fun hf => ?_⟩
  by_cases hx : x = 0#8
  · rw [axisSetCheck_of_empty hx]
    exact ⟨fun _ => rfl, fun h => absurd hx h.1⟩
  · rw [axisSetCheck_pass hf hx]
    obtain ⟨hbad, hstop⟩ := hrest
    exact ⟨fun hno => hbad fun hok => hno ⟨hx, hok⟩, fun h => hstop h.2⟩

/-- The state with the blend records that some verdicts give the axes of a set. -/
def modedState (x : AxisSet) (v : Axis → ModeVerdict) (s : State) : State :=
  { s with blend := PerAxis.ofFn fun a => if AxisSet.has x a then (v a).blend else s.blend.get a }

theorem modeEvent_eq (x : AxisSet) (v : Axis → ModeVerdict) (s : State) : modeEvent x v s =
    acceptWith (withdraw (AxisSet.ofTest fun a => AxisSet.has x a && (v a).leaves) (modedState x v s))
      (.outcomes ((AxisSet.members x).map fun a => (v a).outcome)) := rfl

/-- What a mode request makes of the axes of a set, by a table for those its master owns. -/
def modeChanges (h : Header) (x : AxisSet) (s s0 : State) (i : Instr)
    (table : Axis → AxisOutcome → Blend → Blend → Prop → Prop) : Prop :=
  ∃ (o : Axis → AxisOutcome) (bl : PerAxis Blend) (q : List Move) (leaves : Axis → Prop),
    exec i s = .next (placeNotices (doneNotices s0 (fun _ => .withdrawn) (movesGone s0.queue q))
      (okay h (.outcomes ((AxisSet.members x).map o)) { s0 with blend := bl, queue := q })) ∧
    movesWithout leaves id s0.queue q ∧
    ∀ a, (AxisSet.has x a = false → bl.get a = s0.blend.get a ∧ ¬ leaves a) ∧
      (AxisSet.has x a = true → ownerOf s0 a ≠ some h.link →
        o a = .notOwner ∧ bl.get a = s0.blend.get a ∧ ¬ leaves a) ∧
      (AxisSet.has x a = true → ownerOf s0 a = some h.link → table a (o a) (s0.blend.get a) (bl.get a) (leaves a))

/-- A mode request on some axes, by what its verdicts give the axes its master owns. -/
theorem modeEvent_changes {i : Instr} {h : Header} {x : AxisSet} {s s0 : State} {v : Axis → ModeVerdict}
    {table : Axis → AxisOutcome → Blend → Blend → Prop → Prop} (hi : requestHeader i = some h) (hr : isReset i = false)
    (ht : taken i s s0) (hn : (s0.queue.map Move.id).Nodup)
    (hb : requestBody i s0 = modeEvent x (ownedVerdict h.link s0 v) s0)
    (htable : ∀ a, table a (v a).outcome (s0.blend.get a) (v a).blend ((v a).leaves = true)) :
    modeChanges h x s s0 i table := by
  rw [modeEvent_eq, withdraw_eq (s := modedState x (ownedVerdict h.link s0 v) s0) hn] at hb
  have hexec := exec_acceptsWith hi hr ht hb
  refine ⟨fun a => (ownedVerdict h.link s0 v a).outcome, _, _,
    fun a => AxisSet.has x a = true ∧ (ownedVerdict h.link s0 v a).leaves = true, hexec,
    withdraw_movesWithout _ fun a => by rw [AxisSet.has_ofTest, Bool.and_eq_true], fun a =>
      ⟨fun hx => ⟨?_, fun ⟨hxa, _⟩ => ?_⟩, fun hx ho => ?_, fun hx ho => ?_⟩⟩
  · show (PerAxis.ofFn _).get a = _
    rw [PerAxis.get_ofFn, if_neg (Bool.eq_false_iff.1 hx)]
  · rw [hx] at hxa
    exact Bool.false_ne_true hxa
  · have hv : ownedVerdict h.link s0 v a = .keep .notOwner (s0.blend.get a) := if_neg ho
    refine ⟨congrArg ModeVerdict.outcome hv, ?_, fun ⟨_, hl⟩ => ?_⟩
    · show (PerAxis.ofFn _).get a = _
      rw [PerAxis.get_ofFn, if_pos hx, hv]
      rfl
    · rw [hv] at hl
      exact Bool.false_ne_true hl
  · have hv : ownedVerdict h.link s0 v a = v a := if_pos ho
    have hleaves : (AxisSet.has x a = true ∧ (v a).leaves = true) = ((v a).leaves = true) := by
      rw [hx, eq_self, true_and]
    show table a (ownedVerdict h.link s0 v a).outcome _ ((PerAxis.ofFn _).get a)
      (AxisSet.has x a = true ∧ (ownedVerdict h.link s0 v a).leaves = true)
    rw [PerAxis.get_ofFn, if_pos hx, hv, hleaves]
    exact htable a

/-- Settles O40: each table is read off the verdict of an owned axis. -/
theorem modeRequestsFollowTheirTables : Obligations.ModeRequestsFollowTheirTables := by
  intro h x n s s0 changes i hi ht hn
  have hchanges : changes = modeChanges h x s s0 := rfl
  rw [hchanges]
  simp only [List.mem_cons, List.not_mem_nil, or_false] at hi
  rcases hi with rfl | rfl
  case inl =>
    have hP : (askedMode n).isSome = true ↔ (Instr.setMode h x n = .setMode h x n → n ≤ 2) ∧
        (Instr.setMode h x n = .takeLive h x n → 1 ≤ n ∧ n ≤ 4000) := by
      rw [askedMode_isSome]
      simp
    refine judged_of_firstFailing (fun c hc => exec_refuses rfl rfl ht ?_) (fun hnone => ⟨fun _ => ?_, nofun⟩)
      (modeRequest_firstFailing hP)
    · show modeRequest h.link x _ _ s0 = _
      unfold modeRequest
      rw [hc]
    · have hbody : requestBody (.setMode h x n) s0 =
          modeEvent x (ownedVerdict h.link s0 (setModeVerdict ((askedMode n).getD .hold) s0)) s0 := by
        show modeRequest h.link x _ _ s0 = _
        unfold modeRequest
        rw [hnone]
      refine modeEvent_changes rfl rfl ht hn hbody fun a => ⟨?_, ?_, ?_, ?_⟩
      · rintro rfl
        exact liveVerdict_goesLive s0 a
      · rintro rfl
        exact ⟨rfl, rfl, Bool.false_ne_true⟩
      · rintro rfl hmode
        have htrim : setModeVerdict .trim s0 a = .keep .trim { s0.blend.get a with mode := .trim, trim := 0 } := if_pos hmode
        exact ⟨congrArg ModeVerdict.outcome htrim, congrArg ModeVerdict.blend htrim,
          fun hl => Bool.false_ne_true ((congrArg ModeVerdict.leaves htrim).symm.trans hl)⟩
      · rintro rfl hmode
        have htrim : setModeVerdict .trim s0 a = .keep .badMode (s0.blend.get a) := if_neg hmode
        exact ⟨congrArg ModeVerdict.outcome htrim, congrArg ModeVerdict.blend htrim,
          fun hl => Bool.false_ne_true ((congrArg ModeVerdict.leaves htrim).symm.trans hl)⟩
  case inr =>
    have hP : numberWithin 1 4000 n = true ↔ (Instr.takeLive h x n = .setMode h x n → n ≤ 2) ∧
        (Instr.takeLive h x n = .takeLive h x n → 1 ≤ n ∧ n ≤ 4000) := by
      rw [numberWithin_iff]
      simp
    refine judged_of_firstFailing (fun c hc => exec_refuses rfl rfl ht ?_) (fun hnone => ⟨nofun, fun _ => ?_⟩)
      (modeRequest_firstFailing hP)
    · show modeRequest h.link x _ _ s0 = _
      unfold modeRequest
      rw [hc]
    · have hbody : requestBody (.takeLive h x n) s0 =
          modeEvent x (ownedVerdict h.link s0 (takeLiveVerdict n s0)) s0 := by
        show modeRequest h.link x _ _ s0 = _
        unfold modeRequest
        rw [hnone]
      refine modeEvent_changes rfl rfl ht hn hbody fun a => ?_
      intro held moving
      refine ⟨fun hm hh => ?_, fun hm => ?_, fun hm => ?_⟩
      · rw [takeLiveVerdict_held hm (inLiveMove_iff.2 hh), firstLiveTrack, clampTo_eq_max_min (by decide)]
        exact ⟨rfl, Bool.false_ne_true, rfl⟩
      · rw [takeLiveVerdict_handoff hm]
        exact ⟨rfl, Bool.false_ne_true, rfl⟩
      · rw [takeLiveVerdict_live (hm.imp_right (Or.imp_right (And.imp_right (mt inLiveMove_iff.1))))]
        exact liveVerdict_goesLive s0 a

/-! ## SET COUPLING -/

theorem absorbTerm_eq (c : Coupling) (s : State) : absorbTerm c s = { s with
    blend := if c.enabled = true ∧ AxisSet.has s.settings.fitted c.target = true ∧ (s.blend.get c.target).mode = .live
      then s.blend.set c.target { s.blend.get c.target with
        base := (s.blend.get c.target).base + (c.gain * (d1Of s c.source - c.reference)).tdiv 256 }
      else s.blend } := by
  unfold absorbTerm
  simp only [Bool.and_eq_true, beq_iff_eq, and_assoc]
  split <;> rfl

theorem axisOfNumber_of_lt {n : Nat} (h : n < 8) : ∃ a : Axis, a.number = n := by
  have hall : ∀ n : Fin 8, ∃ a ∈ Axis.all, a.number = n := by decide
  obtain ⟨a, _, ha⟩ := hall ⟨n, h⟩
  exact ⟨a, ha⟩

theorem axis_number_lt (a : Axis) : a.number < 8 := by cases a <;> decide

theorem axisOfNumber_eq_some {n : Nat} {a : Axis} : Axis.ofNumber? n = some a ↔ a.number = n := by
  refine ⟨fun ha => ?_, fun hn => hn ▸ Axis.ofNumber_number a⟩
  have hn : n < 8 := by
    refine Classical.byContradiction fun hn => ?_
    rw [axisOfNumber_none (by omega)] at ha
    cases ha
  obtain ⟨b, rfl⟩ := axisOfNumber_of_lt hn
  rw [Axis.ofNumber_number] at ha
  rw [Option.some.inj ha]

theorem namesUnfitted_iff {s : State} {n : Nat} : namesUnfitted s n = true ↔
    ∃ a : Axis, a.number = n ∧ ¬ AxisSet.has s.settings.fitted a = true := by
  by_cases h : n < 8
  · obtain ⟨a, rfl⟩ := axisOfNumber_of_lt h
    rw [namesUnfitted_number]
    exact ⟨fun hn => ⟨a, rfl, hn⟩, fun ⟨b, hb, hn⟩ => Axis.number_inj hb ▸ hn⟩
  · rw [namesUnfitted_none (by omega)]
    refine iff_of_false Bool.false_ne_true ?_
    rintro ⟨a, rfl, _⟩
    exact h (axis_number_lt a)

theorem couplingOf_of_arguments {e j k : Nat} {g : Int} {x y : Axis} (he : e ≤ 1) (hx : x.number = j)
    (hy : y.number = k) (hne : j ≠ k) (hg : -2048 ≤ g ∧ g ≤ 2047) : couplingOf e j k g =
      some { enabled := e == 1, source := x, target := y, gain := g, reference := 0 } := by
  subst hx hy
  unfold couplingOf
  rw [flagOf_of_le he, Axis.ofNumber_number, Axis.ofNumber_number]
  exact if_pos ⟨fun h => hne (congrArg Axis.number h), within_iff.2 hg⟩

theorem arguments_of_couplingOf {e j k : Nat} {g : Int} {c : Coupling} (h : couplingOf e j k g = some c) :
    e ≤ 1 ∧ j < 8 ∧ k < 8 ∧ j ≠ k ∧ -2048 ≤ g ∧ g ≤ 2047 := by
  unfold couplingOf at h
  split at h
  · rename_i b x y hb hx hy
    split at h
    · rename_i hc
      obtain ⟨hne, hg⟩ := hc
      obtain rfl := axisOfNumber_eq_some.1 hx
      obtain rfl := axisOfNumber_eq_some.1 hy
      exact ⟨(flagOf_eq_some hb).1, axis_number_lt x, axis_number_lt y, fun h => hne (Axis.number_inj h),
        within_iff.1 hg⟩
    · cases h
  · cases h

/-- Settles O41: the checks decode the entry, and the two writes are to different fields. -/
theorem setCouplingAbsorbsTheOldTerm : Obligations.SetCouplingAbsorbsTheOldTerm := by
  intro h n e j k g s s0 i ht hp
  have hbody : requestBody i s0 = setCoupling n e j k g s0 := privileged_yes hp _
  have hunfitted : (e = 1 ∧ (namesUnfitted s0 j = true ∨ namesUnfitted s0 k = true)) ↔
      ¬ (e = 1 → ∀ a : Axis, a.number = j ∨ a.number = k → AxisSet.has s0.settings.fitted a = true) := by
    rw [Classical.not_imp, namesUnfitted_iff, namesUnfitted_iff]
    simp only [Classical.not_forall, exists_prop, or_and_right, exists_or]
  refine ⟨fun hbad => exec_refuses rfl rfl ht (hbody.trans (if_pos (hunfitted.2 hbad))), fun hfit => ?_⟩
  have hpass := hbody.trans (if_neg fun hc => hunfitted.1 hc hfit)
  refine ⟨fun hbad => ?badArgument, fun hargs x y hn hx hy => ?accepted⟩
  case badArgument =>
    refine exec_refuses rfl rfl ht (hpass.trans ?_)
    split
    · rename_i c hc
      obtain ⟨he, hj, hk, hne, hg⟩ := arguments_of_couplingOf hc
      exact dif_neg fun hn => hbad ⟨hn, he, hj, hk, hne, hg⟩
    · rfl
  case accepted =>
    obtain ⟨_, he, _, _, hne, hg⟩ := hargs
    refine exec_accepts rfl rfl ht (hpass.trans ?_)
    rw [couplingOf_of_arguments he hx hy hne hg]
    refine (dif_pos hn).trans ?_
    rw [absorbTerm_eq]
    unfold rewriteCoupling
    simp only [beq_iff_eq]
    rfl

end Sys2Proof.Machine
end

section
/-! PROOFS. The genlock monitor (O43) and the requests of the timecode (O44). -/

namespace Sys2Proof.Machine

/-! ## Moves waiting on a timecode -/

theorem waitingCue_any (p : Timecode → Bool) (m : Move) : (waitingCue m).any p = waitsOn p m := by
  have hwaits : (m.state = .queued ∧ m.satisfied = false) ↔ (m.state == .queued && !m.satisfied) = true := by
    rw [Bool.and_eq_true, beq_iff_eq, Bool.not_eq_true']
  unfold waitingCue waitsOn
  by_cases h : m.state = .queued ∧ m.satisfied = false
  · rw [if_pos h, hwaits.1 h]
    cases m.cue <;> rfl
  · rw [if_neg h, Bool.eq_false_iff.2 (mt hwaits.2 h)]
    rfl

theorem waitingCue_eq_some {m : Move} {v : Timecode} : waitingCue m = some v ↔ waitsOn (fun t => t == v) m = true := by
  rw [← waitingCue_any]
  cases waitingCue m <;> simp

theorem cueMatch_eq (v : Timecode) (s : State) : cueMatch v s = { s with
    queue := s.queue.map fun m => if waitsOn (fun t => t == v) m then { m with satisfied := true } else m } := by
  unfold cueMatch
  simp only [waitingCue_eq_some]

theorem missCues_eq (p : Timecode → Bool) (s : State) : missCues p s =
    { state := { s with queue := s.queue.filter fun m => !(waitsOn p m) }
      posts := doneNotices s (fun _ => .cueMissed) (s.queue.filter (waitsOn p)) } := by
  have htest : (fun m => (waitingCue m).any p) = waitsOn p := funext (waitingCue_any p)
  unfold missCues
  rw [htest, removeMoves_eq]

/-! ## The genlock monitor -/

theorem goodPeriod_iff {r : Rate} {n : Nat} :
    goodPeriod r n = true ↔ (goodWindow r).1 ≤ n ∧ n ≤ (goodWindow r).2 := by
  cases r <;> exact numberWithin_iff

theorem exec_genlockPulse (dt : Nat) (s : State) :
    exec (.genlockPulse dt) s = .next (genlockPulse (elapse dt s)).settle := rfl

theorem exec_genlockLossEvent (dt : Nat) (s : State) :
    exec (.genlockLossEvent dt) s = .next (genlockLoss (elapse dt s)).settle := rfl

section Pulse
variable {s : State}

theorem genlockPulse_unready (h : s.startup.phase ≠ .ready) : genlockPulse s = quiet s := by
  unfold genlockPulse ready
  rw [beq_false_of_ne h]
  rfl

theorem genlockPulse_ready (h : s.startup.phase = .ready) :
    genlockPulse s = judgePeriod (goodPeriod s.settings.rate s.timecode.period) (capturePeriod s) := by
  unfold genlockPulse ready
  rw [h]
  rfl

end Pulse

section Judge
variable {s : State} {good : Bool}

theorem judgePeriod_unlocked (h : s.timecode.lock = .noReference ∨ s.timecode.lock = .lost) :
    judgePeriod good s = quiet (setLock .locking 0 s) := by
  unfold judgePeriod
  rcases h with h | h <;> rw [h]

theorem judgePeriod_locking (h : s.timecode.lock = .locking) :
    judgePeriod good s = if good then quiet (countGood s) else quiet (setLock .locking 0 s) := by
  unfold judgePeriod
  rw [h]
  cases good <;> rfl

theorem judgePeriod_locked (h : s.timecode.lock = .locked) :
    judgePeriod good s = if good then quiet (lockedPulse s) else loseGenlock s := by
  unfold judgePeriod
  rw [h]
  cases good <;> rfl

end Judge

/-- Settles O43: a pulse acts by the lock state it finds, and so does the loss. -/
theorem pulsesDriveTheMonitor : Obligations.PulsesDriveTheMonitor := by
  intro dt s
  rw [exec_genlockPulse, exec_genlockLossEvent]
  generalize elapse dt s = s1
  intro _ u w good pulsed gives next
  have hgood : good → goodPeriod s1.settings.rate s1.timecode.period = true := goodPeriod_iff.2
  have hbad : ¬ good → goodPeriod s1.settings.rate s1.timecode.period = false := fun hb =>
    Bool.eq_false_iff.2 (mt goodPeriod_iff.1 hb)
  refine ⟨fun hr => ?unready, fun hr => ?pulse, ?loss⟩
  case unready => rw [genlockPulse_unready hr]; rfl
  case pulse =>
    have hpulse : ∀ {t}, (judgePeriod (goodPeriod s1.settings.rate s1.timecode.period) (capturePeriod s1)).settle =
        { s1 with timecode := t } → gives t := fun {t} ht => by
      show Host.Outcome.next (genlockPulse s1).settle = _
      rw [genlockPulse_ready hr, ht]
    rw [genlockPulse_ready hr]
    have hlocking : u.lock = .locking → ∀ b, judgePeriod b (capturePeriod s1) = _ := fun hl b => judgePeriod_locking hl
    have hlocked : u.lock = .locked → ∀ b, judgePeriod b (capturePeriod s1) = _ := fun hl b => judgePeriod_locked hl
    refine ⟨fun hl => ?_, fun hl hg hn => ?_, fun hl hg hn => ?_, fun hl hg => ?_, fun hl hg hrun => ?_,
      fun hl hg hrun => ?_, fun hl hg => ?_⟩
    · refine hpulse ?_
      rw [judgePeriod_unlocked (s := capturePeriod s1) hl]
      rfl
    · refine hpulse ?_
      rw [hlocking hl, hgood hg]
      show countGood (capturePeriod s1) = _
      rw [countGood, if_pos (show (capturePeriod s1).timecode.good < 3 from hn)]
      rfl
    · refine hpulse ?_
      rw [hlocking hl, hgood hg]
      show countGood (capturePeriod s1) = _
      rw [countGood, if_neg (show ¬ (capturePeriod s1).timecode.good < 3 from Nat.not_lt.2 hn)]
      rfl
    · refine hpulse ?_
      rw [hlocking hl, hbad hg]
      rfl
    · refine hpulse ?_
      rw [hlocked hl, hgood hg]
      show lockedPulse (capturePeriod s1) = _
      unfold lockedPulse
      rw [show (capturePeriod s1).timecode.run = .stopped from hrun]
      rfl
    · rw [hlocked hl, hgood hg]
      show Host.Outcome.next (lockedPulse (capturePeriod s1)) = _
      unfold lockedPulse
      rw [show (capturePeriod s1).timecode.run = .running from hrun]
      show Host.Outcome.next (advanceTimecode _) = _
      rw [advanceTimecode, cueMatch_eq]
      rfl
    · rw [hlocked hl, hbad hg]
      rfl
  case loss =>
    intro due
    have hdue : due ↔ ¬ u.period < lossThreshold s1.settings.rate := by
      rw [← lossCounts_eq, Nat.not_lt]
    refine ⟨fun hd hl => ?_, fun hd hl => ?_, fun hno => ?_⟩
    · rw [genlockLoss, if_neg (hdue.1 hd), show s1.timecode.lock = .locked from hl]
      rfl
    · rw [genlockLoss, if_neg (hdue.1 hd), show s1.timecode.lock = .locking from hl]
      rfl
    · rcases hno with hd | hl | hl
      · rw [genlockLoss, if_pos (Classical.not_not.1 (mt hdue.2 hd))]
        rfl
      · rw [genlockLoss, show s1.timecode.lock = .noReference from hl]
        split <;> rfl
      · rw [genlockLoss, show s1.timecode.lock = .lost from hl]
        split <;> rfl

/-! ## Requests -/

theorem rateOf_perSecond (r : Rate) : rateOf (perSecond r) = some r := by cases r <;> rfl

theorem framesPerSecond_eq (r : Rate) : framesPerSecond r = perSecond r := by cases r <;> rfl

theorem rateOf_none {n : Nat} (h : ¬ (n = 24 ∨ n = 25 ∨ n = 30)) : rateOf n = none := by
  unfold rateOf
  split <;> simp_all

theorem perSecond_of_mem {n : Nat} (h : n = 24 ∨ n = 25 ∨ n = 30) : ∃ r, perSecond r = n := by
  rcases h with rfl | rfl | rfl
  · exact ⟨.fps24, rfl⟩
  · exact ⟨.fps25, rfl⟩
  · exact ⟨.fps30, rfl⟩

theorem offsetResult_eq {s : State} {n : Nat} (v : Timecode) (h : n ≤ 1) : offsetResult s n v =
    some (if n = 0 then addTimecode s.settings.rate s.timecode.counter v
      else subtractTimecode s.settings.rate s.timecode.counter v) := by
  obtain rfl | rfl : n = 0 ∨ n = 1 := by omega
  · rfl
  · rfl

theorem offsetResult_none {s : State} {n : Nat} (v : Timecode) (h : ¬ n ≤ 1) : offsetResult s n v = none := by
  rcases n with _ | _ | n
  · exact absurd (Nat.zero_le 1) h
  · exact absurd (Nat.le_refl 1) h
  · rfl

theorem writeCounter_eq (c : Timecode) (s : State) : writeCounter c s =
    missCues (fun t => decide (positionInDay s.settings.rate s.timecode.counter < positionInDay s.settings.rate t ∧
      positionInDay s.settings.rate t ≤ positionInDay s.settings.rate c)) (setCounter c s) := by
  unfold writeCounter
  simp only [Bool.decide_and]

theorem runAndStop : runAndStopSetTheRunState := fun _ _ _ =>
  ⟨fun ht => ⟨fun hp => exec_accepts rfl rfl ht (privileged_yes hp _), fun hp =>
      exec_refuses rfl rfl ht (privileged_no hp _)⟩,
    fun ht => ⟨fun hp => exec_accepts rfl rfl ht (privileged_yes hp _), fun hp =>
      exec_refuses rfl rfl ht (privileged_no hp _)⟩⟩

theorem counterRequests : counterRequestsWriteAndMiss := by
  intro h s s0 hp u r p missing written
  have hmiss : ∀ {i : Instr} {q : Timecode → Bool} {d : ReplyData} {t : State}, requestHeader i = some h →
      isReset i = false → taken i s s0 → requestBody i s0 = acceptWith (missCues q t) d → t.queue = s0.queue →
      t.startup = s0.startup → exec i s = .next (missing q d t) := fun {i q d t} hi hr ht hb hq hs => by
    rw [missCues_eq, hq] at hb
    have hexec : exec i s = .next (placeNotices (doneNotices t (fun _ => .cueMissed) (s0.queue.filter (waitsOn q)))
        (okay h d { t with queue := s0.queue.filter fun m => !(waitsOn q m) })) := exec_acceptsWith hi hr ht hb
    have hposts : doneNotices t (fun _ => .cueMissed) (s0.queue.filter (waitsOn q)) =
        doneNotices s0 (fun _ => .cueMissed) (s0.queue.filter (waitsOn q)) := by
      unfold doneNotices withSupervisor
      rw [hs]
    rw [hposts] at hexec
    exact hexec
  refine ⟨fun v ht => ?set, fun n v ht => ?offset, fun n ht => ?rate⟩
  case set =>
    have hbody : requestBody (.setTimecode h v) s0 = setTimecode v s0 := privileged_yes hp _
    refine ⟨fun hv => exec_refuses rfl rfl ht (hbody.trans (if_neg hv)), fun hv => ?_⟩
    exact hmiss rfl rfl ht (hbody.trans ((if_pos hv).trans (congrArg (acceptWith · _) (writeCounter_eq v s0)))) rfl rfl
  case offset =>
    have hbody : requestBody (.offsetTimecode h n v) s0 = offsetTimecode n v s0 := privileged_yes hp _
    unfold offsetTimecode at hbody
    refine ⟨fun hn => exec_refuses rfl rfl ht (hbody.trans (by rw [offsetResult_none v hn])), fun hn => ?_⟩
    rw [offsetResult_eq v hn] at hbody
    refine ⟨fun hv => exec_refuses rfl rfl ht (hbody.trans (if_neg hv)), fun hv => ?_⟩
    exact hmiss rfl rfl ht (hbody.trans ((if_pos hv).trans (congrArg (acceptWith · _) (writeCounter_eq _ s0)))) rfl rfl
  case rate =>
    have hbody : requestBody (.setRate h n) s0 = setRate n s0 := privileged_yes hp _
    unfold setRate at hbody
    refine ⟨fun hn => exec_refuses rfl rfl ht (hbody.trans (by rw [rateOf_none hn])), fun hn => ?_⟩
    obtain ⟨new, rfl⟩ := perSecond_of_mem hn
    rw [rateOf_perSecond] at hbody
    refine ⟨fun hrun => ?_, fun hrun new' heq => ?_⟩
    · have hrunning : s0.timecode.run = .running := by
        cases hs : s0.timecode.run with
        | running => rfl
        | stopped => exact absurd hs hrun
      exact exec_refuses rfl rfl ht (hbody.trans (if_pos hrunning))
    · obtain rfl : new' = new := by
        have h := rateOf_perSecond new'
        rw [heq, rateOf_perSecond] at h
        exact (Option.some.inj h).symm
      have hstopped : ¬ s0.timecode.run = .running := by
        rw [show s0.timecode.run = .stopped from hrun]
        nofun
      have hpass := hbody.trans (if_neg hstopped)
      refine ⟨fun hsame => exec_accepts rfl rfl ht (hpass.trans (if_pos hsame.symm)), fun hother => ?_⟩
      have hnew := hpass.trans (if_neg fun hs => hother hs.symm)
      unfold newRate at hnew
      simp only [framesPerSecond_eq] at hnew
      exact hmiss rfl rfl ht hnew rfl rfl

/-- Settles O44: each counter request ends in one removal of the moves whose cue it passed. -/
theorem timecodeRequestsRunWriteAndMiss : Obligations.TimecodeRequestsRunWriteAndMiss :=
  ⟨runAndStop, counterRequests⟩

end Sys2Proof.Machine
end

section
/-! PROOFS. The drive bus: its configuration, start and stop (O45), the drive enables (O46), and the frame sources
(O47). -/

namespace Sys2Proof.Machine

/-! ## The slot map -/

theorem slotOf_eq_some {o : Nat} {x : Slot} : slotOf o = some x ↔ slotNamed o x := by
  constructor
  · intro h
    unfold slotOf at h
    split at h
    · rename_i hk
      exact .inl ⟨by omega, (Option.some.inj h).symm⟩
    · rename_i a hk ha
      have hnumber := axisOfNumber_eq_some.1 ha
      exact .inr ⟨a, .inl ⟨by omega, (Option.some.inj h).symm⟩⟩
    · rename_i a hk ha
      have hnumber := axisOfNumber_eq_some.1 ha
      exact .inr ⟨a, .inr ⟨by omega, (Option.some.inj h).symm⟩⟩
    · cases h
  · rintro (⟨hlt, rfl⟩ | ⟨a, ⟨rfl, rfl⟩ | ⟨rfl, rfl⟩⟩)
    · unfold slotOf
      rw [show o / 16 = 0 by omega]
      rfl
    · have ha := axis_number_lt a
      unfold slotOf
      rw [show (16 + a.number) / 16 = 1 by omega, show (16 + a.number) % 16 = a.number by omega, Axis.ofNumber_number]
      rfl
    · have ha := axis_number_lt a
      unfold slotOf
      rw [show (32 + a.number) / 16 = 2 by omega, show (32 + a.number) % 16 = a.number by omega, Axis.ofNumber_number]
      rfl

theorem sixteenOf_of_length {α : Type} : ∀ {l : List α}, l.length = 16 → ∃ m, sixteenOf l = some m ∧ m.toList = l
  | [_, _, _, _, _, _, _, _, _, _, _, _, _, _, _, _], _ => ⟨_, rfl, rfl⟩

theorem length_of_sixteenOf {α : Type} {l : List α} {m : Vector α 16} (h : sixteenOf l = some m) : l.length = 16 := by
  unfold sixteenOf at h
  split at h
  · rfl
  · cases h

theorem length_of_allSome {α β : Type} {f : α → Option β} : ∀ {l : List α} {r : List β}, allSome (l.map f) = some r →
    r.length = l.length
  | [], _, h => by rw [← Option.some.inj h]; rfl
  | v :: l, r, h => by
    rw [List.map_cons] at h
    cases hv : f v with
    | none => rw [hv] at h; cases h
    | some w =>
      rw [hv, allSome, Option.map_eq_some_iff] at h
      obtain ⟨r', hr', rfl⟩ := h
      rw [List.length_cons, List.length_cons, length_of_allSome hr']

theorem slotMapOf_passes {l : List Nat} (hl : l.length = 16) (hall : ∀ o ∈ l, ∃ x, slotNamed o x) :
    ∃ m, slotMapOf l = some m ∧ ∀ k : Fin 16, ∃ o, l[k.val]? = some o ∧ slotNamed o m[k] := by
  have hslot : ∀ o ∈ l, slotOf o = some ((slotOf o).getD .unused) := fun o ho => by
    obtain ⟨x, hx⟩ := hall o ho
    rw [slotOf_eq_some.2 hx]
    rfl
  obtain ⟨m, hm, hlist⟩ := sixteenOf_of_length (l := l.map fun o => (slotOf o).getD .unused) (by rw [List.length_map, hl])
  refine ⟨m, by rw [slotMapOf, allSome_map hslot]; exact hm, fun k => ?_⟩
  have hk : k.val < l.length := by omega
  refine ⟨l[k.val], List.getElem?_eq_getElem hk, slotOf_eq_some.1 ?_⟩
  have hentry : m[k] = (slotOf l[k.val]).getD .unused := by
    show m[k.val] = _
    rw [← Vector.getElem_toList (h := by simp)]
    simp only [hlist, List.getElem_map]
  rw [hentry]
  exact hslot _ (List.getElem_mem hk)

theorem arguments_of_slotMapOf {l : List Nat} {m : Vector Slot 16} (h : slotMapOf l = some m) :
    l.length = 16 ∧ ∀ o ∈ l, ∃ x, slotNamed o x := by
  obtain ⟨r, hr, hm⟩ := Option.bind_eq_some_iff.1 h
  exact ⟨(length_of_allSome hr).symm.trans (length_of_sixteenOf hm), fun o ho =>
    (mem_allSome hr o ho).imp fun _ => slotOf_eq_some.1⟩

theorem roleOf_of_le {n : Nat} (h : n ≤ 1) : roleOf n = some (if n = 0 then .frameMaster else .follower) := by
  obtain rfl | rfl : n = 0 ∨ n = 1 := by omega
  · rfl
  · rfl

theorem le_of_roleOf {n : Nat} {r : BusRole} (h : roleOf n = some r) : n ≤ 1 := by
  rcases n with _ | _ | n
  · exact Nat.zero_le 1
  · exact Nat.le_refl 1
  · cases h

theorem setBusConfig_refuses {r n : Nat} {l : List Nat} {s : State}
    (h : ¬ (r ≤ 1 ∧ 250 ≤ n ∧ n ≤ 4000 ∧ l.length = 16 ∧ ∀ o ∈ l, ∃ x, slotNamed o x)) :
    setBusConfig r n l s = refuse s .badArgument := by
  unfold setBusConfig
  split
  · rename_i role m hrole hm
    refine if_neg fun hn => h ?_
    obtain ⟨hlo, hhi⟩ := numberWithin_iff.1 hn
    exact ⟨le_of_roleOf hrole, hlo, hhi, arguments_of_slotMapOf hm⟩
  · rfl

/-! ## BUS START and BUS STOP -/

theorem slotCount_eq (s : State) (x : Slot) : slotCount s x = slotsHolding s x := List.count_eq_length_filter

theorem slotsServe_iff {s : State} {a : Axis} : slotsServe s a = true ↔
    slotsHolding s (.demand a) = (if AxisSet.has s.settings.fitted a then 1 else 0) ∧
      slotsHolding s (.feedback a) = if AxisSet.has s.settings.fitted a then 1 else 0 := by
  rw [← slotCount_eq, ← slotCount_eq]
  unfold slotsServe
  rw [Bool.and_eq_true, beq_iff_eq, beq_iff_eq]

theorem firstSync_eq (r : BusRole) : firstSync r = if r = .frameMaster then .idle else .waiting := by cases r <;> rfl

theorem anyFittedEnabled_iff {s : State} : anyFittedEnabled s = true ↔
    ∃ a, AxisSet.has s.settings.fitted a = true ∧ isEnabled s a = true := by
  unfold anyFittedEnabled shares
  rw [bne_iff_ne, AxisSet.ne_zero_iff]
  simp [enabledSet]

theorem running_of_not_stopped {b : RunState} (h : ¬ b = .stopped) : b = .running := by
  cases b
  · exact absurd rfl h
  · rfl

/-- Settles O45: the slot map decodes octet by octet, and the three requests write the bus or the settings alone. -/
theorem busRequestsConfigureStartAndStop : Obligations.BusRequestsConfigureStartAndStop := by
  refine fun h s s0 hp => ⟨fun r n l ht => ?config, fun ht => ?start, fun ht => ?stop⟩
  case config =>
    have hbody : requestBody (.setBusConfig h r n l) s0 = setBusConfig r n l s0 := privileged_yes hp _
    refine ⟨fun hno => exec_refuses rfl rfl ht (hbody.trans (setBusConfig_refuses hno)), fun hargs => ?_⟩
    obtain ⟨hr, hlo, hhi, hl, hall⟩ := hargs
    obtain ⟨m, hm, hslots⟩ := slotMapOf_passes hl hall
    unfold setBusConfig at hbody
    rw [roleOf_of_le hr, hm] at hbody
    have hpass := hbody.trans (if_pos (numberWithin_iff.2 ⟨hlo, hhi⟩))
    refine ⟨fun hb => exec_refuses rfl rfl ht (hpass.trans (if_pos (running_of_not_stopped hb))), fun hb => ?_⟩
    exact ⟨m, hslots, exec_accepts rfl rfl ht (hpass.trans (if_neg (by rw [hb]; nofun)))⟩
  case start =>
    have hbody : requestBody (.busStart h) s0 = busStart s0 := privileged_yes hp _
    refine ⟨fun hb => exec_refuses rfl rfl ht (hbody.trans (if_pos (running_of_not_stopped hb))), fun hb => ?_⟩
    have hpass := hbody.trans (if_neg (by rw [hb]; nofun))
    have hserve : (∀ a, let n := if AxisSet.has s0.settings.fitted a then 1 else 0
        slotsHolding s0 (.demand a) = n ∧ slotsHolding s0 (.feedback a) = n) ↔
        Axis.all.all (slotsServe s0) = true := by
      rw [Axis.all_eq_true]
      exact forall_congr' fun a => slotsServe_iff.symm
    refine ⟨fun hno => exec_refuses rfl rfl ht (hpass.trans (if_neg (mt hserve.2 hno))), fun hyes => ?_⟩
    rw [← firstSync_eq]
    exact exec_accepts rfl rfl ht (hpass.trans (if_pos (hserve.1 hyes)))
  case stop =>
    have hbody : requestBody (.busStop h) s0 = busStop s0 := privileged_yes hp _
    have hany : anyFittedEnabled s0 = true ↔
        ¬ ∀ a, AxisSet.has s0.settings.fitted a = true → isEnabled s0 a = false := by
      rw [anyFittedEnabled_iff]
      simp
    refine ⟨fun hno => exec_refuses rfl rfl ht (hbody.trans (if_pos (hany.2 hno))), fun hyes => ?_⟩
    have hpass := hbody.trans (if_neg fun h => hany.1 h hyes)
    have hactive : s0.queue.any Move.active = true ↔ ¬ ∀ m ∈ s0.queue, m.state = .queued := by
      simp [Move.active]
    refine ⟨fun hno => exec_refuses rfl rfl ht (hpass.trans (if_pos (hactive.2 hno))), fun hyes => ?_⟩
    have hstops := hpass.trans (if_neg fun h => hactive.1 h hyes)
    exact ⟨fun hb => exec_accepts rfl rfl ht (hstops.trans (if_neg (by rw [hb]; nofun))), fun hb =>
      exec_accepts rfl rfl ht (hstops.trans (if_pos hb))⟩

/-! ## The drive enables -/

theorem writeEnables_eq (x : AxisSet) (e : DriveEnable) (s : State) : writeEnables x e s = { s with
    bus := { s.bus with
      drives := PerAxis.ofFn fun a => { s.bus.drives.get a with
        enable := (PerAxis.ofFn fun a => if AxisSet.has x a then e else (s.bus.drives.get a).enable).get a } } } := by
  have hdrives : mapAt x (fun d => { d with enable := e }) s.bus.drives = PerAxis.ofFn fun a =>
      { s.bus.drives.get a with
        enable := (PerAxis.ofFn fun a => if AxisSet.has x a then e else (s.bus.drives.get a).enable).get a } := by
    refine PerAxis.ext_get fun a => ?_
    simp only [mapAt, PerAxis.get_ofFn]
    split <;> rfl
  unfold writeEnables
  rw [hdrives]

/-- What ENABLE or DISABLE gives the named axes, by a table of outcome and drive enable. -/
def enableWrites (h : Header) (x : AxisSet) (s s0 : State) (i : Instr)
    (table : Axis → AxisOutcome → DriveEnable → Prop) : Prop :=
  ∃ (o : Axis → AxisOutcome) (e : PerAxis DriveEnable),
    exec i s = .next (okay h (.outcomes ((AxisSet.members x).map o))
      { s0 with bus := { s0.bus with
          drives := PerAxis.ofFn fun a => { s0.bus.drives.get a with enable := e.get a } } }) ∧
    ∀ a, (AxisSet.has x a = false → e.get a = (s0.bus.drives.get a).enable) ∧
      (AxisSet.has x a = true → table a (o a) (e.get a))

theorem enableWrites_of_writeEnables {i : Instr} {h : Header} {x y : AxisSet} {s s0 : State} {v : DriveEnable}
    {o : Axis → AxisOutcome} {table : Axis → AxisOutcome → DriveEnable → Prop} (hi : requestHeader i = some h)
    (hr : isReset i = false) (ht : taken i s s0)
    (hb : requestBody i s0 = accept (writeEnables y v s0) (.outcomes ((AxisSet.members x).map o)))
    (hy : ∀ a, AxisSet.has y a = true → AxisSet.has x a = true)
    (htable : ∀ a, AxisSet.has x a = true →
      table a (o a) (if AxisSet.has y a then v else (s0.bus.drives.get a).enable)) : enableWrites h x s s0 i table := by
  rw [writeEnables_eq] at hb
  refine ⟨o, _, exec_accepts hi hr ht hb, fun a => ⟨fun hx => ?_, fun hx => ?_⟩⟩
  · rw [PerAxis.get_ofFn, if_neg fun h => Bool.false_ne_true (hx.symm.trans (hy a h))]
  · rw [PerAxis.get_ofFn]
    exact htable a hx

theorem axisSetCheck_firstFailing (s : State) (x : AxisSet) :
    firstFailing (axisSetCheck s x) [(allFitted s x, .badAxis), (x ≠ 0#8, .badArgument)] :=
  ⟨axisSetCheck_badAxis, fun hf => ⟨fun hx => axisSetCheck_of_empty (Classical.not_not.1 hx), axisSetCheck_pass hf⟩⟩

theorem isEnabled_iff {s : State} {a : Axis} : isEnabled s a = true ↔ (s.bus.drives.get a).enable = .enabled := beq_iff_eq

theorem enableOutcome_notOwner {m : Master} {s : State} {a : Axis} (h : ¬ ownerOf s a = some m) :
    enableOutcome m s a = .notOwner := if_pos h

section EnableOutcome
variable {m : Master} {s : State} {a : Axis} (ho : ownerOf s a = some m)
include ho

theorem enableOutcome_stands (he : (s.bus.drives.get a).enable = .enabled) : enableOutcome m s a = .enabled :=
  (if_neg (Classical.not_not.2 ho)).trans (if_pos (isEnabled_iff.2 he))

theorem enableOutcome_released (he : (s.bus.drives.get a).enable = .released) : enableOutcome m s a =
    if s.bus.latch then .latched
    else if s.bus.state = .stopped then .busStopped
    else if (s.bus.drives.get a).state ≠ .ready ∨ (s.bus.drives.get a).echo ≠ .good then .driveNotReady
    else if softOk s a (s.bus.drives.get a).feedback then .enabled
    else .outOfLimits :=
  (if_neg (Classical.not_not.2 ho)).trans (if_neg (by rw [isEnabled_iff, he]; nofun))

end EnableOutcome

/-- Settles O46: the enable is written where the outcome is ENABLED, or the axis is owned. -/
theorem enableAndDisableWriteTheEnables : Obligations.EnableAndDisableWriteTheEnables := by
  intro h x s s0 writes
  have hwrites : writes = enableWrites h x s s0 := rfl
  rw [hwrites]
  refine ⟨fun ht => ?enable, fun ht => ?disable⟩
  case enable =>
    have hchecks := firstFailing_orElse (axisSetCheck_firstFailing s0 x) (firstFailing_failing (code := .faultStop)
      (bne_iff_ne (a := s0.faults.safeStop) (b := .stopping)))
    refine judged_of_firstFailing (fun c hc => exec_refuses rfl rfl ht ?_) (fun hnone => ?_) hchecks
    · show enable h.link x s0 = _
      unfold enable
      rw [hc]
    · have hbody : requestBody (.enable h x) s0 = accept (writeEnables (enabledBy h.link x s0) .enabled s0)
          (.outcomes ((AxisSet.members x).map (enableOutcome h.link s0))) := by
        show enable h.link x s0 = _
        unfold enable
        rw [hnone]
      have hby : ∀ a, AxisSet.has (enabledBy h.link x s0) a = true ↔
          AxisSet.has x a = true ∧ enableOutcome h.link s0 a = .enabled := fun a => by
        rw [enabledBy, AxisSet.has_ofTest, Bool.and_eq_true, beq_iff_eq]
      refine enableWrites_of_writeEnables rfl rfl ht hbody (fun a ha => ((hby a).1 ha).1) fun a hx => ?_
      intro d stands owns idle answering
      have hstands : ∀ {c}, enableOutcome h.link s0 a = c → c ≠ .enabled → enableOutcome h.link s0 a = c ∧
          (if AxisSet.has (enabledBy h.link x s0) a then DriveEnable.enabled else d.enable) = d.enable := fun {c} ho hc =>
        ⟨ho, if_neg fun hb => hc (ho.symm.trans ((hby a).1 hb).2)⟩
      have hrest : ∀ hi : idle, enableOutcome h.link s0 a = _ := fun ⟨ho, he, hl, hb⟩ =>
        (enableOutcome_released ho he).trans ((if_neg (by rw [hl]; nofun)).trans (if_neg (by rw [hb]; nofun)))
      refine ⟨fun ho => hstands (enableOutcome_notOwner ho) nofun, fun ho he => ⟨enableOutcome_stands ho he, ?_⟩,
        fun ho he hl => hstands ((enableOutcome_released ho he).trans (if_pos hl)) nofun,
        fun ho he hl hb => hstands ((enableOutcome_released ho he).trans
          ((if_neg (by rw [hl]; nofun)).trans (if_pos hb))) nofun,
        fun hi hno => hstands ((hrest hi).trans (if_pos ?_)) nofun,
        fun hi hans hsoft => hstands ((hrest hi).trans ((if_neg ?_).trans (if_neg (mt softOk_iff.1 hsoft)))) nofun,
        fun hi hans hsoft => ?_⟩
      · split
        · exact he.symm
        · rfl
      · exact Classical.not_and_iff_not_or_not.1 hno
      · exact fun hc => hc.elim (fun h => h hans.1) fun h => h hans.2
      · have ho : enableOutcome h.link s0 a = .enabled := (hrest hi).trans
          ((if_neg fun hc => hc.elim (fun h => h hans.1) fun h => h hans.2).trans (if_pos (softOk_iff.2 hsoft)))
        exact ⟨ho, if_pos ((hby a).2 ⟨hx, ho⟩)⟩
  case disable =>
    refine judged_of_firstFailing (fun c hc => exec_refuses rfl rfl ht ?_) (fun hnone => ?_)
      (axisSetCheck_firstFailing s0 x)
    · show disable h.link x s0 = _
      unfold disable
      rw [hc]
    · have hbody : requestBody (.disable h x) s0 = accept (writeEnables (x &&& ownedBy s0 h.link) .released s0)
          (.outcomes ((AxisSet.members x).map (disableOutcome h.link s0))) := by
        show disable h.link x s0 = _
        unfold disable
        rw [hnone]
      have hby : ∀ a, AxisSet.has (x &&& ownedBy s0 h.link) a = true ↔
          AxisSet.has x a = true ∧ ownerOf s0 a = some h.link := fun a => by
        simp [ownedBy]
      refine enableWrites_of_writeEnables rfl rfl ht hbody (fun a ha => ((hby a).1 ha).1) fun a hx =>
        ⟨fun ho => ⟨if_pos ho, if_pos ((hby a).2 ⟨hx, ho⟩)⟩, fun ho => ⟨if_neg ho, if_neg fun hb => ho ((hby a).1 hb).2⟩⟩

/-! ## The frame sources -/

theorem exec_frameStart (dt : Nat) (w : SlotWords) (s : State) :
    exec (.frameStart dt w) s = .next (frameStart w (elapse dt s)).settle := rfl

theorem exec_busSyncEdge (dt : Nat) (w : SlotWords) (s : State) :
    exec (.busSyncEdge dt w) s = .next (busSyncEdge w (elapse dt s)).settle := rfl

theorem exec_busSyncLost (dt : Nat) (s : State) :
    exec (.busSyncLost dt) s = .next (busSyncLost (elapse dt s)).settle := rfl

theorem whenever_of {b : Bool} {P : Prop} (hb : b = true ↔ P) (f : State → Emit) (s : State) :
    (P → whenever b f s = f s) ∧ (¬ P → whenever b f s = quiet s) :=
  ⟨fun h => by rw [hb.2 h]; rfl, fun h => by rw [Bool.eq_false_iff.2 (mt hb.1 h)]; rfl⟩

/-- Settles O47: each source is an event under a condition. -/
theorem frameSourcesFollowRoleAndSync : Obligations.FrameSourcesFollowRoleAndSync := by
  intro dt w s
  rw [exec_frameStart, exec_busSyncEdge, exec_busSyncLost]
  generalize elapse dt s = s1
  intro _ u starts due
  have hstart := whenever_of (b := s1.bus.state == .running && s1.settings.role == .frameMaster) (P := starts)
    (by rw [Bool.and_eq_true, beq_iff_eq, beq_iff_eq])
    (fun s => frame w { s with bus := { s.bus with syncPulses := s.bus.syncPulses + 1 } }) s1
  have hedge := whenever_of (b := s1.bus.sync != .idle) (P := u.sync ≠ .idle) bne_iff_ne
    (fun s => frame w (takeEdge s)) s1
  have hlost := whenever_of (b := (s1.bus.sync == .waiting || s1.bus.sync == .present) &&
    decide (syncThreshold s1 ≤ s1.bus.syncCounter)) (P := due)
    (by rw [Bool.and_eq_true, Bool.or_eq_true, beq_iff_eq, beq_iff_eq, decide_eq_true_iff]; rfl)
    (fun s => raise .busSyncLost RaiseInfo.bare { s with bus := { s.bus with sync := .lost } }) s1
  refine ⟨fun hno => ?_, fun hyes => ?_, fun hidle => ?_, fun hsync => ?_, fun hno => ?_, fun hyes => ?_⟩
  · exact congrArg (Host.Outcome.next ∘ Emit.settle) (hstart.2 hno)
  · exact congrArg (Host.Outcome.next ∘ Emit.settle) (hstart.1 hyes)
  · exact congrArg (Host.Outcome.next ∘ Emit.settle) (hedge.2 (Classical.not_not.2 hidle))
  · exact congrArg (Host.Outcome.next ∘ Emit.settle) (hedge.1 hsync)
  · exact congrArg (Host.Outcome.next ∘ Emit.settle) (hlost.2 hno)
  · exact congrArg (Host.Outcome.next ∘ Emit.settle) (hlost.1 hyes)

end Sys2Proof.Machine
end

section
/-! PROOFS. A frame of the drive bus (O48): what it sends, receives and checks. -/

namespace Sys2Proof.Machine

/-! ## What stops and the frame computation leave -/

/-- A drive's items beside its enable, which a stop may release. -/
def Drive.bare (d : Drive) : Drive := { d with enable := .released }

/-- A reading that neither a raise nor the frame computation changes. -/
structure OffStop {α : Type} (g : State → α) : Prop where
  beside : ∀ s q b f d c a p,
    g { s with queue := q, blend := b, faults := f, demand := d, clamped := c, armed := a, ports := p } = g s
  release : ∀ s, g (releaseDrives s) = g s

section OffStop
variable {α : Type} {g : State → α}

theorem OffStop.enterReleased (o : OffStop g) (s : State) : g (enterReleased s).state = g s :=
  (o.beside (releaseDrives s) [] s.blend
    { s.faults with safeStop := .released, stopTimer := none } s.demand s.clamped s.armed s.ports |> fun h => by
      rw [← o.release s, ← h, Machine.enterReleased, removeMoves_eq, filter_all]
      simp only [Bool.not_true, filter_nothing]
      rfl)

theorem OffStop.stopLaw (o : OffStop g) (v : α) : StopLaw fun s => g s = v where
  queue s q _ h := (o.beside s q s.blend s.faults s.demand s.clamped s.armed s.ports).trans h
  blend s b h := (o.beside s s.queue b s.faults s.demand s.clamped s.armed s.ports).trans h
  releaseDrives s h := (o.release s).trans h
  stopping s _ h := (o.beside s s.queue s.blend _ s.demand s.clamped s.armed s.ports).trans h
  released s h := (o.enterReleased s).trans h
  cause s _ h := (o.beside s s.queue s.blend _ s.demand s.clamped s.armed s.ports).trans h
  escalation s _ h := (o.beside s s.queue s.blend _ s.demand s.clamped s.armed s.ports).trans h
  record src info s h := by
    have hrecord : ∃ f, raiseRecord src info s = { s with faults := f } := by
      unfold raiseRecord
      split <;> exact ⟨_, rfl⟩
    obtain ⟨f, hf⟩ := hrecord
    rw [hf]
    exact (o.beside s s.queue s.blend f s.demand s.clamped s.armed s.ports).trans h

theorem OffStop.computationLaw (o : OffStop g) (v : α) : ComputationLaw fun s => g s = v where
  raise := (o.stopLaw v).raise
  released := (o.stopLaw v).released
  queue s q _ h := (o.beside s q s.blend s.faults s.demand s.clamped s.armed s.ports).trans h
  plain s b d c a h := (o.beside s s.queue b s.faults d c a s.ports).trans h
  report m s h := by
    obtain ⟨p, hp⟩ := countReports_spec [m] s
    have hone : (countReport m s).state = { s with ports := p } := hp
    rw [hone]
    exact (o.beside s s.queue s.blend s.faults s.demand s.clamped s.armed p).trans h

theorem OffStop.frameComputation (o : OffStop g) (s : State) : g (frameComputation s).state = g s :=
  (o.computationLaw (g s)).computation rfl

end OffStop

/-! ## The checks of one axis -/

/-- The bus items that a frame counts and fills, beside the settings. -/
def busReading (s : State) : Settings × BitVec 8 × BitVec 32 × RunState × Vector (Option SentWord) 16 :=
  (s.settings, s.bus.sequence, s.bus.frameNumber, s.bus.state, s.bus.slotWords)

/-- The items of one drive beside its enable, and the settings. -/
def driveReading (a : Axis) (s : State) : Settings × Drive := (s.settings, (s.bus.drives.get a).bare)

theorem busReading_offStop : OffStop busReading where
  beside _ _ _ _ _ _ _ _ := rfl
  release _ := rfl

theorem driveReading_offStop (a : Axis) : OffStop (driveReading a) where
  beside _ _ _ _ _ _ _ _ := rfl
  release s := by
    unfold driveReading
    rw [releaseDrives_eq, PerAxis.get_ofFn]
    rfl

section Checks
variable {P : State → Prop} (sl : StopLaw P)
include sl

theorem echoCheck_law {w : PerAxis (Option FeedbackWord)} {a : Axis} {s : State}
    (h : P (setDrive a (echoJudged (w.get a) (s.bus.drives.get a)) s)) : P (echoCheck w a s).state :=
  whenever_keeps (sl.raise _ _) _ h

theorem driveStateCheck_law {before : PerAxis DriveState} {a : Axis} {s : State} (h : P s) :
    P (driveStateCheck before a s).state := whenever_keeps (sl.raise _ _) _ h

theorem followingCheck_law {w : PerAxis (Option FeedbackWord)} {a : Axis} {s : State}
    (h : P (setDrive a { s.bus.drives.get a with
      following := followingCount (s.settings.limits.get a) (w.get a) (s.bus.drives.get a) } s)) :
    P (followingCheck w a s).state := whenever_keeps (sl.raise _ _) _ h

end Checks

theorem driveReading_setDrive (a b : Axis) (d : Drive) (s : State) :
    driveReading a (setDrive b d s) = if a = b then (s.settings, d.bare) else driveReading a s := by
  unfold driveReading setDrive
  simp only [PerAxis.get_set]
  split <;> rfl

theorem echoJudged_bare (w : Option FeedbackWord) (d : Drive) : (echoJudged w d).bare = echoJudged w d.bare := by
  have hechoed : echoed d.bare w = echoed d w := rfl
  unfold echoJudged
  rw [hechoed]
  cases echoed d w <;> rfl

/-- The checks' step on the items of one drive. -/
def checkedDrive (l : Limits) (w : Option FeedbackWord) (d : Drive) : Drive :=
  { echoJudged w d with following := followingCount l w (echoJudged w d) }

theorem andThen_congr {e : Emit} {f g : State → Emit} (h : f e.state = g e.state) : e.andThen f = e.andThen g := by
  unfold Emit.andThen
  rw [h]

/-- The feedback checks on the axes that were fitted when they began. -/
theorem feedbackChecks_eq (before : PerAxis DriveState) (w : PerAxis (Option FeedbackWord)) (s : State) :
    feedbackChecks before w s = ((emitEach (fittedAxes s) (echoCheck w) s).andThen
      (emitEach (fittedAxes s) (driveStateCheck before))).andThen (emitEach (fittedAxes s) (followingCheck w)) := by
  have hkeeps : OffStop State.settings := ⟨fun _ _ _ _ _ _ _ _ => rfl, fun _ => rfl⟩
  have hlaw := hkeeps.stopLaw s.settings
  have hecho : (emitEach (fittedAxes s) (echoCheck w) s).state.settings = s.settings :=
    emitEach_keeps (P := fun t => t.settings = s.settings) (fun a t ht => echoCheck_law hlaw ht) _ rfl
  have hstate : ((emitEach (fittedAxes s) (echoCheck w) s).andThen
      (emitEach (fittedAxes s) (driveStateCheck before))).state.settings = s.settings :=
    emitEach_keeps (P := fun t => t.settings = s.settings) (fun a t ht => driveStateCheck_law hlaw ht) _ hecho
  have hfitted : ∀ {e : Emit} {f : Axis → State → Emit}, e.state.settings = s.settings →
      (e.andThen fun t => emitEach (fittedAxes t) f t) = e.andThen (emitEach (fittedAxes s) f) := fun {e f} he =>
    andThen_congr (by rw [fittedAxes, he, fittedAxes])
  unfold feedbackChecks
  rw [hfitted hecho, hfitted hstate]

theorem feedbackChecks_bus (before : PerAxis DriveState) (w : PerAxis (Option FeedbackWord)) (s : State) :
    busReading (feedbackChecks before w s).state = busReading s := by
  have hlaw := busReading_offStop.stopLaw (busReading s)
  rw [feedbackChecks_eq, andThen_state, andThen_state]
  refine emitEach_keeps (P := fun t => busReading t = busReading s) (fun a t ht => followingCheck_law hlaw ht) _ ?_
  refine emitEach_keeps (P := fun t => busReading t = busReading s) (fun a t ht => driveStateCheck_law hlaw ht) _ ?_
  exact emitEach_keeps (P := fun t => busReading t = busReading s) (fun a t ht => echoCheck_law hlaw ht) _ rfl

/-- What the checks make of a fitted axis. -/
theorem feedbackChecks_fitted (before : PerAxis DriveState) (w : PerAxis (Option FeedbackWord)) {s : State} {a : Axis}
    (ha : a ∈ fittedAxes s) : driveReading a (feedbackChecks before w s).state =
      (s.settings, (checkedDrive (s.settings.limits.get a) (w.get a) (s.bus.drives.get a)).bare) := by
  have hlaw := (driveReading_offStop a).stopLaw
  have hother : ∀ {b : Axis} {d : Drive} {v : Settings × Drive} {t : State}, b ≠ a → driveReading a t = v →
      driveReading a (setDrive b d t) = v := fun hb ht => by
    rw [driveReading_setDrive, if_neg (Ne.symm hb), ht]
  rw [feedbackChecks_eq, andThen_state, andThen_state]
  refine emitEach_once (P := fun t => driveReading a t = (s.settings, (echoJudged (w.get a) (s.bus.drives.get a)).bare))
    (Q := fun t => driveReading a t =
      (s.settings, (checkedDrive (s.settings.limits.get a) (w.get a) (s.bus.drives.get a)).bare))
    (fittedAxes_nodup s) ha (fun b t hb ht => followingCheck_law (hlaw _) (hother hb ht)) (fun t ht => ?_)
    (fun b t hb ht => followingCheck_law (hlaw _) (hother hb ht)) _ ?_
  · refine followingCheck_law (hlaw _) ?_
    obtain ⟨hsettings, hdrive⟩ := Prod.mk.inj ht
    rw [driveReading_setDrive, if_pos rfl, hsettings]
    show (_, { (t.bus.drives.get a).bare with
      following := followingCount (s.settings.limits.get a) (w.get a) (t.bus.drives.get a).bare }) = _
    rw [hdrive]
    rfl
  · refine emitEach_keeps (P := fun t => driveReading a t = (s.settings, (echoJudged (w.get a) (s.bus.drives.get a)).bare))
      (fun b t ht => driveStateCheck_law (hlaw _) ht) _ ?_
    refine emitEach_once (P := fun t => driveReading a t = (s.settings, (s.bus.drives.get a).bare))
      (Q := fun t => driveReading a t = (s.settings, (echoJudged (w.get a) (s.bus.drives.get a)).bare))
      (fittedAxes_nodup s) ha (fun b t hb ht => echoCheck_law (hlaw _) (hother hb ht)) (fun t ht => ?_)
      (fun b t hb ht => echoCheck_law (hlaw _) (hother hb ht)) _ rfl
    refine echoCheck_law (hlaw _) ?_
    obtain ⟨hsettings, hdrive⟩ := Prod.mk.inj ht
    rw [driveReading_setDrive, if_pos rfl, hsettings, echoJudged_bare, hdrive, ← echoJudged_bare]

theorem feedbackChecks_unfitted (before : PerAxis DriveState) (w : PerAxis (Option FeedbackWord)) {s : State} {a : Axis}
    (ha : a ∉ fittedAxes s) : driveReading a (feedbackChecks before w s).state = driveReading a s := by
  have hlaw := (driveReading_offStop a).stopLaw (driveReading a s)
  have hother : ∀ {f : Axis → State → Emit} (l : List Axis) {t : State}, a ∉ l →
      (∀ b t, b ≠ a → driveReading a t = driveReading a s → driveReading a (f b t).state = driveReading a s) →
      driveReading a t = driveReading a s → driveReading a (emitEach l f t).state = driveReading a s := by
    intro f l
    induction l with
    | nil => exact fun _ _ ht => ht
    | cons b l ih =>
      intro t hl hf ht
      rw [List.mem_cons, not_or] at hl
      exact ih hl.2 hf (hf b t (Ne.symm hl.1) ht)
  have hset : ∀ {b : Axis} {d : Drive} {t : State}, b ≠ a → driveReading a t = driveReading a s →
      driveReading a (setDrive b d t) = driveReading a s := fun hb ht => by
    rw [driveReading_setDrive, if_neg (Ne.symm hb), ht]
  rw [feedbackChecks_eq, andThen_state, andThen_state]
  refine hother _ ha (fun b t hb ht => followingCheck_law hlaw (hset hb ht)) ?_
  refine hother _ ha (fun b t hb ht => driveStateCheck_law hlaw ht) ?_
  exact hother _ ha (fun b t hb ht => echoCheck_law hlaw (hset hb ht)) rfl

end Sys2Proof.Machine
end

section
/-! PROOFS. What a frame leaves (O48), read off the steps it is made of. -/

namespace Sys2Proof.Machine

/-! ## Echoes and the following count -/

section Echo
variable {w : Option FeedbackWord} {d : Drive} {v : SentWord}

theorem hasSequence_iff {q : BitVec 8} {u : Option SentWord} :
    hasSequence q u = true ↔ ∃ x, u = some x ∧ x.sequence = q := by
  cases u <;> simp [hasSequence]

theorem echoed_iff : echoed d w = some v ↔ ∃ f, w = some f ∧
    ((∃ u, d.sent = some u ∧ u.sequence = f.echo ∧ v = u) ∨
      ((∀ u, d.sent = some u → u.sequence ≠ f.echo) ∧ ∃ u, d.sentBefore = some u ∧ u.sequence = f.echo ∧ v = u)) := by
  cases w with
  | none => exact iff_of_false nofun fun ⟨f, hf, _⟩ => nomatch hf
  | some f =>
    show echoedWord d f = some v ↔ _
    simp only [Option.some.injEq, exists_eq_left']
    unfold echoedWord
    by_cases hsent : hasSequence f.echo d.sent = true
    · obtain ⟨u, hu, hq⟩ := hasSequence_iff.1 hsent
      rw [if_pos hsent, hu]
      refine ⟨fun h => .inl ⟨u, rfl, hq, (Option.some.inj h).symm⟩, ?_⟩
      rintro (⟨u', hu', _, rfl⟩ | ⟨hno, _⟩)
      · exact hu'
      · exact absurd hq (hno u rfl)
    · rw [if_neg hsent]
      have hnone : ∀ u, d.sent = some u → u.sequence ≠ f.echo := fun u hu hq => hsent (hasSequence_iff.2 ⟨u, hu, hq⟩)
      rw [or_iff_right fun ⟨u, hu, hq, _⟩ => hnone u hu hq, and_iff_right hnone]
      by_cases hbefore : hasSequence f.echo d.sentBefore = true
      · obtain ⟨u, hu, hq⟩ := hasSequence_iff.1 hbefore
        rw [if_pos hbefore, hu]
        exact ⟨fun h => ⟨u, rfl, hq, (Option.some.inj h).symm⟩, fun ⟨u', hu', _, hv⟩ => hv ▸ hu'⟩
      · rw [if_neg hbefore]
        exact iff_of_false nofun fun ⟨u, hu, hq, _⟩ => hbefore (hasSequence_iff.2 ⟨u, hu, hq⟩)

theorem echoed_eq_none (h : ¬ ∃ v, echoed d w = some v) : echoed d w = none :=
  Option.eq_none_iff_forall_ne_some.2 fun v hv => h ⟨v, hv⟩

theorem echoJudged_some (h : echoed d w = some v) : echoJudged w d = { d with echo := .good, silent := 0 } := by
  unfold echoJudged
  rw [h]

theorem echoJudged_none (h : echoed d w = none) :
    echoJudged w d = { d with echo := .stale, silent := min 3 (d.silent + 1) } := by
  unfold echoJudged
  rw [h]

theorem followingCount_none {l : Limits} (h : echoed d w = none) (hs : d.echo = .stale) :
    followingCount l w d = d.following := by
  have hword : followedWord l w d = none := by
    unfold followedWord
    rw [h]
    split <;> rfl
  unfold followingCount
  rw [hword]
  exact if_pos hs

theorem followingCount_some {l : Limits} (h : echoed d w = some v) (hg : d.echo = .good) : followingCount l w d =
    if l.followingLimit ≠ 0 ∧ v.enabled = true ∧ l.followingLimit < (v.position - d.feedback).natAbs
    then min 255 (d.following + 1) else 0 := by
  have hzero : followedWord l w d = none → followingCount l w d = 0 := fun hword => by
    unfold followingCount
    rw [hword]
    exact if_neg (by rw [hg]; nofun)
  by_cases hl : l.followingLimit = 0
  · rw [if_neg fun hc => hc.1 hl]
    exact hzero (if_pos hl)
  · have hword : followedWord l w d = (some v).filter SentWord.enabled := (if_neg hl).trans (by rw [h])
    by_cases he : v.enabled = true
    · rw [Option.filter_some, if_pos he] at hword
      unfold followingCount lags
      rw [hword]
      simp [hl, he]
    · rw [Option.filter_some, if_neg he] at hword
      rw [if_neg fun hc => he hc.2.1]
      exact hzero hword

end Echo

/-! ## The checks of one axis, by their conditions -/

theorem echoCheck_eq (w : PerAxis (Option FeedbackWord)) (a : Axis) (s : State) : echoCheck w a s =
    whenever ((s.bus.drives.get a).silent == 2 && (echoed (s.bus.drives.get a) (w.get a)).isNone)
      (raise .driveSilent (RaiseInfo.ofAxes a.alone))
      (setDrive a (echoJudged (w.get a) (s.bus.drives.get a)) s) := rfl

theorem checksRaise_holds (w : PerAxis (Option FeedbackWord)) (before : PerAxis DriveState) (a : Axis) (s : State) :
    checksRaise w before a s := by
  unfold checksRaise
  intro d l put info stands echoes good stale
  have hechoes : ∀ v, echoes v ↔ echoed d (w.get a) = some v := fun v => echoed_iff.symm
  have hnone : (¬ ∃ v, echoes v) → echoed d (w.get a) = none := fun h =>
    echoed_eq_none fun ⟨v, hv⟩ => h ⟨v, (hechoes v).2 hv⟩
  refine ⟨fun ⟨v, hv⟩ => ?heard, fun hno hsilent => ?silent, fun hno hsilent => ?stale, fun hs hb => ?fault,
    fun hs => ?sound, followingCount l (w.get a) d, fun hn hd => ?following, fun hn => ?near,
    fun hno hs => followingCount_none (hnone hno) hs, fun v hv hg => ?count⟩
  case heard =>
    rw [echoCheck_eq, echoJudged_some ((hechoes v).1 hv), show echoed (s.bus.drives.get a) (w.get a) = some v from
      (hechoes v).1 hv, Option.isNone_some, Bool.and_false]
    rfl
  case silent =>
    rw [echoCheck_eq, echoJudged_none (hnone hno), show echoed (s.bus.drives.get a) (w.get a) = none from hnone hno,
      show (s.bus.drives.get a).silent = 2 from hsilent]
    show raise _ _ _ = _
    rw [← show (s.bus.drives.get a).silent = 2 from hsilent]
    rfl
  case stale =>
    rw [echoCheck_eq, echoJudged_none (hnone hno), beq_false_of_ne hsilent, Bool.false_and]
    rfl
  case fault =>
    unfold driveStateCheck
    rw [show (s.bus.drives.get a).state = .fault from hs, bne_iff_ne.2 hb]
    rfl
  case sound =>
    have hquiet : ((s.bus.drives.get a).state == .fault && before.get a != .fault) = false := by
      rcases hs with hs | hb
      · rw [beq_false_of_ne hs, Bool.false_and]
      · rw [hb, Bool.and_comm]
        rfl
    unfold driveStateCheck
    rw [hquiet]
    rfl
  case following =>
    have hcheck : (followingCount l (w.get a) d == l.followingPersistence &&
        decide (d.following < followingCount l (w.get a) d)) = true := by
      rw [Bool.and_eq_true, beq_iff_eq, decide_eq_true_iff]
      exact ⟨hn, hd⟩
    show whenever _ _ _ = _
    rw [show (followingCount (s.settings.limits.get a) (w.get a) (s.bus.drives.get a) ==
      (s.settings.limits.get a).followingPersistence && decide ((s.bus.drives.get a).following <
        followingCount (s.settings.limits.get a) (w.get a) (s.bus.drives.get a))) = true from hcheck]
    rfl
  case near =>
    have hcheck : (followingCount l (w.get a) d == l.followingPersistence &&
        decide (d.following < followingCount l (w.get a) d)) = false := by
      rw [Bool.and_eq_false_iff, beq_eq_false_iff_ne, decide_eq_false_iff_not, Nat.not_lt]
      exact hn
    show whenever _ _ _ = _
    rw [show (followingCount (s.settings.limits.get a) (w.get a) (s.bus.drives.get a) ==
      (s.settings.limits.get a).followingPersistence && decide ((s.bus.drives.get a).following <
        followingCount (s.settings.limits.get a) (w.get a) (s.bus.drives.get a))) = false from hcheck]
    rfl
  case count =>
    intro lags
    have hcount := followingCount_some (l := l) ((hechoes v).1 hv) hg
    exact ⟨fun hl => hcount.trans (if_pos hl), fun hl => hcount.trans (if_neg hl)⟩

/-! ## Transmit and receive -/

theorem updateDrives_get (f : Axis → Drive → Drive) (s : State) (a : Axis) : (updateDrives f s).bus.drives.get a =
    if AxisSet.has s.settings.fitted a then f a (s.bus.drives.get a) else s.bus.drives.get a := PerAxis.get_ofFn _ a

/-- The word a frame sends an axis. -/
def frameWord (s : State) (a : Axis) : SentWord :=
  { position := d1Of s a, enabled := isEnabled s a, sequence := s.bus.sequence + 1#8 }

/-- A drive's items once its word is sent and its slot is read. -/
def exchanged (s : State) (a : Axis) (w : Option FeedbackWord) : Drive :=
  takeWord w { s.bus.drives.get a with sent := some (frameWord s a), sentBefore := (s.bus.drives.get a).sent }

theorem receive_transmit_get {w : PerAxis (Option FeedbackWord)} {s : State} {a : Axis}
    (ha : AxisSet.has s.settings.fitted a = true) :
    (receive w (transmit s)).bus.drives.get a = exchanged s a (w.get a) := by
  have hsent : (transmit s).bus.drives.get a =
      { s.bus.drives.get a with sent := some (frameWord s a), sentBefore := (s.bus.drives.get a).sent } :=
    (updateDrives_get _ _ a).trans (if_pos ha)
  refine (updateDrives_get _ _ a).trans ((if_pos ha).trans ?_)
  rw [hsent]
  rfl

theorem receive_transmit_unfitted {w : PerAxis (Option FeedbackWord)} {s : State} {a : Axis}
    (ha : AxisSet.has s.settings.fitted a = false) :
    (receive w (transmit s)).bus.drives.get a = s.bus.drives.get a := by
  have hno : ¬ AxisSet.has s.settings.fitted a = true := Bool.eq_false_iff.1 ha
  have hsent : (transmit s).bus.drives.get a = s.bus.drives.get a := (updateDrives_get _ _ a).trans (if_neg hno)
  exact (updateDrives_get _ _ a).trans ((if_neg hno).trans hsent)

/-! ## The frame -/

theorem frame_eq (w : SlotWords) (s : State) : frame w s =
    (feedbackChecks (PerAxis.ofFn fun a => (s.bus.drives.get a).state) (readSlots w s)
      (receive (readSlots w s) (transmit s))).andThen fun t => frameComputation (countFrame t) := rfl

theorem frame_bus (w : SlotWords) (s : State) : busReading (frame w s).state =
    (s.settings, s.bus.sequence + 1#8, s.bus.frameNumber + 1#32, s.bus.state,
      eachSlot fun n => slotContent s (s.bus.sequence + 1#8) s.settings.slots[n]) := by
  have hchecks := feedbackChecks_bus (PerAxis.ofFn fun a => (s.bus.drives.get a).state) (readSlots w s)
    (receive (readSlots w s) (transmit s))
  have hcount : ∀ t : State, busReading (countFrame t) = ((busReading t).1, (busReading t).2.1,
    (busReading t).2.2.1 + 1#32, (busReading t).2.2.2) := fun _ => rfl
  rw [frame_eq, andThen_state, busReading_offStop.frameComputation, hcount, hchecks]
  rfl

theorem frame_counts (w : SlotWords) (s : State) : (frame w s).state.bus.sequence = s.bus.sequence + 1#8 ∧
    (frame w s).state.bus.frameNumber = s.bus.frameNumber + 1#32 ∧ (frame w s).state.bus.state = s.bus.state ∧
    (frame w s).state.bus.slotWords = eachSlot fun n => slotContent s (s.bus.sequence + 1#8) s.settings.slots[n] := by
  have hbus := frame_bus w s
  generalize (frame w s).state = t at hbus ⊢
  simp only [busReading, Prod.mk.injEq] at hbus
  exact hbus.2

theorem frame_drive (w : SlotWords) (s : State) (a : Axis) :
    driveReading a (frame w s).state = driveReading a (feedbackChecks (PerAxis.ofFn fun a => (s.bus.drives.get a).state)
      (readSlots w s) (receive (readSlots w s) (transmit s))).state := by
  rw [frame_eq, andThen_state, (driveReading_offStop a).frameComputation]
  rfl

/-- The items of a fitted axis after a frame, beside its enable. -/
theorem frame_drive_fitted {w : SlotWords} {s : State} {a : Axis} (ha : AxisSet.has s.settings.fitted a = true) :
    ((frame w s).state.bus.drives.get a).bare =
      (checkedDrive (s.settings.limits.get a) ((readSlots w s).get a) (exchanged s a ((readSlots w s).get a))).bare := by
  have hmem : a ∈ fittedAxes (receive (readSlots w s) (transmit s)) := (AxisSet.mem_members _ _).2 ha
  have hdrive := (frame_drive w s a).trans (feedbackChecks_fitted _ _ hmem)
  rw [receive_transmit_get ha] at hdrive
  exact congrArg Prod.snd hdrive

theorem frame_drive_unfitted {w : SlotWords} {s : State} {a : Axis} (ha : AxisSet.has s.settings.fitted a = false) :
    ((frame w s).state.bus.drives.get a).bare = (s.bus.drives.get a).bare := by
  have hmem : a ∉ fittedAxes (receive (readSlots w s) (transmit s)) := fun h =>
    Bool.false_ne_true (ha.symm.trans ((AxisSet.mem_members _ _).1 h))
  have hdrive := (frame_drive w s a).trans (feedbackChecks_unfitted _ _ hmem)
  have hitems := congrArg Prod.snd hdrive
  rw [driveReading, driveReading, receive_transmit_unfitted ha] at hitems
  exact hitems

/-- No part of a frame enables a drive. -/
theorem enabled_frameLaw (E : Axis → Prop) : FrameLaw fun s => ∀ a, isEnabled s a = true → E a := by
  have hrelease : ∀ s : State, ∀ a, isEnabled (releaseDrives s) a = true → E a := fun s a h =>
    absurd h (by rw [isEnabled_releaseDrives]; exact Bool.false_ne_true)
  have hstop : StopLaw fun s => ∀ a, isEnabled s a = true → E a := {
    queue := fun _ _ _ h => h
    blend := fun _ _ h => h
    releaseDrives := fun s _ => hrelease s
    stopping := fun _ _ h => h
    released := fun s _ => hrelease s
    cause := fun _ _ h => h
    escalation := fun _ _ h => h
    record := fun src info s h a ha => h a (by rw [isEnabled, raiseRecord_bus] at ha; exact ha) }
  exact {
    raise := hstop.raise
    released := hstop.released
    queue := fun _ _ _ h => h
    plain := fun _ _ _ _ _ h => h
    report := fun m s h => by
      obtain ⟨p, hp⟩ := countReports_spec [m] s
      rw [show (countReport m s).state = { s with ports := p } from hp]
      exact h
    drives := fun s x hx h a ha => h a (by rw [isEnabled_iff] at ha ⊢; exact (hx a).symm.trans ha)
    counts := fun _ _ _ _ h => h }

theorem takeWord_sent (w : Option FeedbackWord) (d : Drive) :
    (takeWord w d).sent = d.sent ∧ (takeWord w d).sentBefore = d.sentBefore ∧ (takeWord w d).silent = d.silent ∧
      (takeWord w d).following = d.following := by
  cases w <;> exact ⟨rfl, rfl, rfl, rfl⟩

theorem echoJudged_kept (w : Option FeedbackWord) (d : Drive) : (echoJudged w d).sent = d.sent ∧
    (echoJudged w d).sentBefore = d.sentBefore ∧ (echoJudged w d).feedback = d.feedback ∧
    (echoJudged w d).state = d.state ∧ (echoJudged w d).following = d.following := by
  unfold echoJudged
  split <;> exact ⟨rfl, rfl, rfl, rfl, rfl⟩

/-- The word a frame sends is echoed by its sequence, and so is the one of the frame before. -/
theorem echoed_exchanged {s : State} {a : Axis} {w : Option FeedbackWord} {v : SentWord} :
    echoed (exchanged s a w) w = some v ↔ ∃ f, w = some f ∧
      (if f.echo = s.bus.sequence + 1#8 then v = frameWord s a
        else ∃ u, (s.bus.drives.get a).sent = some u ∧ f.echo = u.sequence ∧ v = u) := by
  obtain ⟨hsent, hbefore, _⟩ := takeWord_sent w
    { s.bus.drives.get a with sent := some (frameWord s a), sentBefore := (s.bus.drives.get a).sent }
  rw [echoed_iff, show (exchanged s a w).sent = some (frameWord s a) from hsent,
    show (exchanged s a w).sentBefore = (s.bus.drives.get a).sent from hbefore]
  refine exists_congr fun f => and_congr_right fun _ => ?_
  simp only [Option.some.injEq, exists_eq_left', forall_eq']
  have hq : (frameWord s a).sequence = s.bus.sequence + 1#8 := rfl
  by_cases hf : f.echo = s.bus.sequence + 1#8
  · rw [if_pos hf, hq, ← hf]
    simp
  · rw [if_neg hf, hq]
    have hne : s.bus.sequence + 1#8 ≠ f.echo := fun h => hf h.symm
    simp [hne, eq_comm]

/-- The two checks read of the drive what the echo check leaves. -/
theorem echoed_echoJudged (w : Option FeedbackWord) (d : Drive) : echoed (echoJudged w d) w = echoed d w := by
  obtain ⟨hsent, hbefore, _⟩ := echoJudged_kept w d
  have hword : echoedWord (echoJudged w d) = echoedWord d := funext fun f => by
    unfold echoedWord
    rw [hsent, hbefore]
  unfold echoed
  rw [hword]

theorem frame_leavesDrive {w : SlotWords} {s : State} {a : Axis} {n : Fin 16}
    (ha : AxisSet.has s.settings.fitted a = true) (hn : s.settings.slots[n] = .feedback a)
    (hu : ∀ k : Fin 16, s.settings.slots[k] = .feedback a → k = n) : frameLeavesDrive w s a n := by
  have hdrive := frame_drive_fitted (w := w) ha
  rw [readSlots_get w hn hu] at hdrive
  unfold frameLeavesDrive
  dsimp only
  generalize (frame w s).state.bus.drives.get a = d' at hdrive ⊢
  obtain ⟨hsent, hbefore, hsilent, hfollowing⟩ := takeWord_sent w[n]
    { s.bus.drives.get a with sent := some (frameWord s a), sentBefore := (s.bus.drives.get a).sent }
  obtain ⟨ksent, kbefore, kfeedback, kstate, kfollowing⟩ := echoJudged_kept w[n] (exchanged s a w[n])
  have hfeedback : d'.feedback = (exchanged s a w[n]).feedback := (congrArg Drive.feedback hdrive).trans kfeedback
  have hstate : d'.state = (exchanged s a w[n]).state := (congrArg Drive.state hdrive).trans kstate
  have hecho : d'.echo = (echoJudged w[n] (exchanged s a w[n])).echo := (congrArg Drive.echo hdrive).trans rfl
  have hcount : d'.silent = (echoJudged w[n] (exchanged s a w[n])).silent := (congrArg Drive.silent hdrive).trans rfl
  have hfollow : d'.following =
      followingCount (s.settings.limits.get a) w[n] (echoJudged w[n] (exchanged s a w[n])) :=
    (congrArg Drive.following hdrive).trans rfl
  have hechoes : ∀ v, _ ↔ echoed (exchanged s a w[n]) w[n] = some v := fun v => echoed_exchanged.symm
  refine ⟨(congrArg Drive.sent hdrive).trans (ksent.trans hsent),
    (congrArg Drive.sentBefore hdrive).trans (kbefore.trans hbefore), fun hw => ?missing, fun f hw => ?intact,
    fun ⟨v, hv⟩ => ?good, fun hno => ?stale, fun v hv => ?count⟩
  case missing =>
    rw [hw] at hfeedback hstate
    exact ⟨hfeedback, hstate⟩
  case intact =>
    rw [hw] at hfeedback hstate
    exact ⟨hfeedback, hstate⟩
  case good =>
    rw [echoJudged_some ((hechoes v).1 hv)] at hecho hcount
    exact ⟨hecho, hcount⟩
  case stale =>
    have hnone := echoed_eq_none fun ⟨v, hv⟩ => hno ⟨v, (hechoes v).2 hv⟩
    have hstands := followingCount_none (l := s.settings.limits.get a) ((echoed_echoJudged _ _).trans hnone)
      (by rw [echoJudged_none hnone])
    rw [echoJudged_none hnone] at hecho hcount
    exact ⟨hecho, hcount.trans (congrArg (fun k => min 3 (k + 1)) hsilent),
      hfollow.trans (hstands.trans (kfollowing.trans hfollowing))⟩
  case count =>
    have hv' := (hechoes v).1 hv
    have hrises := followingCount_some (l := s.settings.limits.get a) ((echoed_echoJudged _ _).trans hv')
      (by rw [echoJudged_some hv'])
    rw [kfeedback, ← hfeedback, kfollowing, show (exchanged s a w[n]).following = _ from hfollowing] at hrises
    exact ⟨fun hl => hfollow.trans (hrises.trans (if_pos hl)), fun hl => hfollow.trans (hrises.trans (if_neg hl))⟩

theorem frame_isEnabled {w : SlotWords} {s : State} {a : Axis} (h : isEnabled (frame w s).state a = true) :
    isEnabled s a = true :=
  (enabled_frameLaw fun b => isEnabled s b = true).frame w (s := s) (fun _ h => h) a h

theorem eq_of_bare {d d' : Drive} (h : d'.bare = d.bare) : d' = { d with enable := d'.enable } := by
  calc d' = { d'.bare with enable := d'.enable } := rfl
    _ = { d.bare with enable := d'.enable } := by rw [h]

/-- Settles O48: the counters and each drive are read through the steps of the frame, which the raises and the frame
computation leave. -/
theorem framesSendReceiveAndCheck : Obligations.FramesSendReceiveAndCheck := by
  refine ⟨fun w s a => ?leaves, fun w before a s => checksRaise_holds w before a s, fun w s => ?steps⟩
  case leaves =>
    obtain ⟨hsequence, hnumber, hstate, hslots⟩ := frame_counts w s
    dsimp only
    refine ⟨hsequence, hnumber, hstate, fun n => ?slots, frame_isEnabled, fun hf => eq_of_bare (frame_drive_unfitted hf),
      fun hf n hn hu => frame_leavesDrive hf hn hu⟩
    have hslot : (frame w s).state.bus.slotWords[n] = slotContent s (s.bus.sequence + 1#8) s.settings.slots[n] := by
      rw [hslots, eachSlot_get]
    refine ⟨fun hn hf => hslot.trans ?_, fun hn hf => hslot.trans ?_, fun hn => hslot.trans ?_⟩
    · rw [hn]
      exact if_pos hf
    · rw [hn]
      exact if_neg (Bool.eq_false_iff.1 hf)
    · rcases hn with hn | hn <;> rw [hn] <;> rfl
  case steps =>
    intro f before brought
    rw [frame_eq, feedbackChecks_eq]
    rfl

end Sys2Proof.Machine
end

section
/-! PROOFS. The safe stop and the raise (O49). -/

namespace Sys2Proof.Machine

/-! ## Safe-stop entry and RELEASE -/

theorem haltEverything_eq (s : State) : haltEverything s =
    { state := { s with
        queue := (s.queue.filter fun m => m.state != .queued).map Move.stopForFault
        blend := mapAt AxisSet.full Blend.toHold s.blend }
      posts := doneNotices s (fun _ => .fault) (s.queue.filter fun m => m.state == .queued) } := rfl

theorem haltEverything_blend (s : State) (a : Axis) : (haltEverything s).state.blend.get a =
    { s.blend.get a with mode := .hold, trim := 0, weight := 0 } := by
  simp [haltEverything_eq, Blend.toHold]

theorem doneNotices_stopForFault (s : State) (o : MoveOutcome) (l : List Move) :
    doneNotices s (fun _ => o) (l.map Move.stopForFault) = doneNotices s (fun _ => o) l := by
  unfold doneNotices
  rw [List.flatMap_map]
  rfl

theorem isEnabled_releasedFrom (s : State) (a : Axis) : isEnabled (releasedFrom s).state a = false := by
  unfold isEnabled releasedFrom
  rw [PerAxis.get_ofFn]
  rfl

/-- A halt of everything that goes on to RELEASED tells the QUEUED moves, then the others. -/
theorem halt_releases (c : StopCause) (s : State) :
    ((haltEverything s).andThen fun t => enterReleased (setStopCause c t)).posts =
      doneNotices s (fun _ => .fault) (s.queue.filter fun m => m.state == .queued) ++
        doneNotices s (fun _ => .fault) (s.queue.filter fun m => m.state != .queued) := by
  rw [andThen_posts, enterReleased_eq]
  exact congrArg (_ ++ ·) (doneNotices_stopForFault s .fault _)

theorem beginStop_driven {s : State} (h : ∃ a, isDriven s a) : beginStop s =
    quiet (setSafeStop .stopping (some (s.timebase.ms + 100 * s.settings.stopTime)) s) :=
  if_pos (anyFittedEnabled_iff.2 h)

theorem beginStop_idle {s : State} (h : ¬ ∃ a, isDriven s a) : beginStop s = enterReleased s :=
  if_neg (mt anyFittedEnabled_iff.1 h)

/-- A safe stop entered from NORMAL. -/
theorem safeStopEntry_normal {c : StopCause} {s : State} (hn : s.faults.safeStop = .normal) :
    entersStop c s (safeStopEntry c s).state (safeStopEntry c s).posts := by
  have hentry : safeStopEntry c s = (haltEverything s).andThen fun s => beginStop (setStopCause c s) := if_pos hn
  rw [hentry]
  by_cases hmoving : ∃ a, isDriven s a
  · have hstop : ((haltEverything s).andThen fun s => beginStop (setStopCause c s)) =
        (haltEverything s).andThen fun t => quiet (setSafeStop .stopping
          (some (s.timebase.ms + 100 * s.settings.stopTime)) (setStopCause c t)) :=
      andThen_congr (beginStop_driven (s := setStopCause c (haltEverything s).state) hmoving)
    rw [hstop]
    refine ⟨rfl, haltEverything_blend s, fun _ => ⟨rfl, rfl, rfl, rfl, ?_⟩, fun hnot => absurd hmoving hnot⟩
    exact List.append_nil _
  · have hstop : ((haltEverything s).andThen fun s => beginStop (setStopCause c s)) =
        (haltEverything s).andThen fun t => enterReleased (setStopCause c t) :=
      andThen_congr (beginStop_idle (s := setStopCause c (haltEverything s).state) hmoving)
    rw [hstop]
    refine ⟨?_, fun a => ?_, fun h => absurd h hmoving, fun _ => ⟨?_, ?_, ?_, ?_, fun a => ?_, halt_releases c s⟩⟩
    all_goals rw [andThen_state, enterReleased_eq]
    · rfl
    · exact haltEverything_blend s a
    · rfl
    · rfl
    · rfl
    · rfl
    · exact isEnabled_releasedFrom _ a

theorem safeStopEntry_else {c : StopCause} {s : State} (hn : s.faults.safeStop ≠ .normal) :
    safeStopEntry c s = quiet s := if_neg hn

/-! ## What a raise is made of -/

/-- The steps of a raise after HOLD: SAFE_STOP, or RELEASE for ESTOP. -/
def raiseStops (src : FaultSource) (s : State) : Emit :=
  if src = .estop then releaseAction s
  else whenever (actionSet s src).safeStop (safeStopEntry (.source src)) s

/-- What a stop step of fault control can change, in words that compose. -/
def StopPart (s t : State) : Prop :=
  ∃ bl q b v timer c, t = { s with
    blend := bl, queue := q, bus := b
    faults := { s.faults with safeStop := v, stopTimer := timer, cause := c } }

theorem stopPart_enterReleased (c : StopCause) (s : State) : StopPart s (enterReleased (setStopCause c s)).state := by
  rw [enterReleased_eq]
  exact ⟨_, _, _, _, _, _, rfl⟩

theorem stopPart_haltReleased (c : StopCause) (s : State) :
    StopPart s ((haltEverything s).andThen fun t => enterReleased (setStopCause c t)).state := by
  rw [andThen_state, enterReleased_eq]
  exact ⟨_, _, _, _, _, _, rfl⟩

theorem stopPart_safeStopEntry (c : StopCause) (s : State) : StopPart s (safeStopEntry c s).state := by
  unfold safeStopEntry
  split
  · rw [andThen_state]
    unfold beginStop
    split
    · exact ⟨_, _, _, _, _, _, rfl⟩
    · exact stopPart_haltReleased c s
  · exact ⟨_, _, _, _, _, _, rfl⟩

theorem stopPart_raiseStops (src : FaultSource) (s : State) : StopPart s (raiseStops src s).state := by
  unfold raiseStops
  split
  · unfold releaseAction
    split
    · exact stopPart_haltReleased _ s
    · exact stopPart_enterReleased _ s
    · exact ⟨_, _, _, _, _, _, rfl⟩
  · unfold whenever
    split
    · exact stopPart_safeStopEntry _ s
    · exact ⟨_, _, _, _, _, _, rfl⟩

theorem andThen_nothing (e : Emit) : e.andThen quiet = e := by
  unfold Emit.andThen
  rw [quiet_posts, List.append_nil, quiet_state]

/-- The record of a raise changes the fault unit alone. -/
theorem raiseRecord_eq (src : FaultSource) (info : RaiseInfo) (s : State) :
    raiseRecord src info s = { s with faults := (raiseRecord src info s).faults } := by
  unfold raiseRecord
  split <;> rfl

theorem raiseRecord_stands (src : FaultSource) (info : RaiseInfo) (s : State) :
    (raiseRecord src info s).faults.escalation = s.faults.escalation ∧
      (raiseRecord src info s).faults.cause = s.faults.cause := by
  unfold raiseRecord
  split <;> exact ⟨rfl, rfl⟩

/-- HOLD does not look at the fault unit. -/
theorem holdAction_faults (x : AxisSet) (f : FaultUnit) (s : State) : holdAction x { s with faults := f } =
    { state := { (holdAction x s).state with faults := f }, posts := (holdAction x s).posts } := rfl

/-- The HOLD step of a raise, on the state before its record. -/
def raiseHeld (src : FaultSource) (info : RaiseInfo) (s : State) : Emit :=
  whenever (actionSet s src).hold (holdAction (holdScope src info s)) s

theorem actionSet_of_settings {s t : State} (h : t.settings = s.settings) (src : FaultSource) :
    actionSet t src = actionSet s src := by
  unfold actionSet
  rw [h]

theorem raiseHeld_settings (src : FaultSource) (info : RaiseInfo) (s : State) :
    (raiseHeld src info s).state.settings = s.settings := by
  unfold raiseHeld whenever
  split <;> rfl

/-- A raise in its parts: the notice and the record, HOLD, the stop, and DELAY. -/
theorem raise_eq (src : FaultSource) (info : RaiseInfo) (s : State) : raise src info s =
    let held := raiseHeld src info s
    let stopped := raiseStops src { held.state with faults := (raiseRecord src info s).faults }
    { state := if (actionSet s src).delay then startEscalation stopped.state else stopped.state
      posts := (if (actionSet s src).notice then faultPosts src info (!anyFlag s) s else []) ++
        (held.posts ++ stopped.posts) } := by
  generalize hf : (raiseRecord src info s).faults = f
  have hrecord := raiseRecord_eq src info s
  rw [hf] at hrecord
  have hacts : actionSet { s with faults := f } src = actionSet s src := actionSet_of_settings rfl src
  have hscope : holdScope src info { s with faults := f } = holdScope src info s := by cases src <;> rfl
  have hheld : whenever (actionSet s src).hold (holdAction (holdScope src info s)) { s with faults := f } =
      { state := { (raiseHeld src info s).state with faults := f }, posts := (raiseHeld src info s).posts } := by
    unfold raiseHeld whenever
    split <;> rfl
  have hstops : ∀ mid : State, mid.settings = s.settings → raiseStops src mid =
      (whenever (actionSet s src).safeStop (safeStopEntry (.source src)) mid).andThen
        (whenever (src == .estop) releaseAction) := fun mid hmid => by
    unfold raiseStops
    rw [actionSet_of_settings hmid]
    split
    case isTrue he => subst he; rfl
    case isFalse hne =>
      rw [beq_eq_false_iff_ne.2 hne]
      exact (andThen_nothing _).symm
  dsimp only
  rw [hstops { (raiseHeld src info s).state with faults := f } (raiseHeld_settings src info s)]
  unfold raise raiseActions
  rw [hrecord, hacts, hscope]
  dsimp only
  rw [hheld]
  unfold Emit.andThen
  simp only [List.append_assoc]
  rfl

end Sys2Proof.Machine
end
section
/-! PROOFS. RAISES RECORD, NOTIFY AND STOP (O49). -/

namespace Sys2Proof.Machine

theorem startEscalation_eq (s : State) : startEscalation s = { s with
    faults := { s.faults with
      escalation := if s.faults.escalation = none then some (s.timebase.ms + 10 * s.settings.escalationDelay)
        else s.faults.escalation } } := by
  unfold startEscalation
  split
  case h_1 h => rw [if_neg (by rw [h]; exact nofun)]
  case h_2 h => rw [if_pos h]

/-- The escalation timer that a raise leaves. -/
def delayedTimer (src : FaultSource) (s : State) : Option Nat :=
  if (actionSet s src).delay = true ∧ s.faults.escalation = none
  then some (s.timebase.ms + 10 * s.settings.escalationDelay) else s.faults.escalation

/-- The stop of a raise, from the state that HOLD left with the raise recorded. -/
def raiseStopped (src : FaultSource) (info : RaiseInfo) (s : State) : Emit :=
  raiseStops src { (raiseHeld src info s).state with faults := (raiseRecord src info s).faults }

theorem raiseHeld_eq (src : FaultSource) (info : RaiseInfo) (s : State) :
    ∃ bl q, (raiseHeld src info s).state = { s with blend := bl, queue := q } := by
  unfold raiseHeld whenever
  split
  · exact ⟨_, _, rfl⟩
  · exact ⟨_, _, rfl⟩

/-- The state that a raise leaves is the one its stop leaves, with the escalation timer of DELAY. -/
theorem raise_state (src : FaultSource) (info : RaiseInfo) (s : State) : (raise src info s).state =
    { (raiseStopped src info s).state with
      faults := { (raiseStopped src info s).state.faults with escalation := delayedTimer src s } } := by
  obtain ⟨hescalation, -⟩ := raiseRecord_stands src info s
  obtain ⟨bl, q, hheld⟩ := raiseHeld_eq src info s
  obtain ⟨_, _, _, _, _, _, hstop⟩ := stopPart_raiseStops src
    { (raiseHeld src info s).state with faults := (raiseRecord src info s).faults }
  rw [raise_eq]
  unfold raiseStopped delayedTimer
  dsimp only
  rw [hstop, hheld]
  cases (actionSet s src).delay
  case false => simp [hescalation]
  case true => simp [startEscalation_eq, hescalation]

theorem raise_records (src : FaultSource) (info : RaiseInfo) (s : State) : raiseRecords src info s
    (raise src info s) ((raiseHeld src info s).posts ++ (raiseStopped src info s).posts) := by
  obtain ⟨_, _, hheld⟩ := raiseHeld_eq src info s
  obtain ⟨_, _, _, _, _, _, hstop⟩ := stopPart_raiseStops src
    { (raiseHeld src info s).state with faults := (raiseRecord src info s).faults }
  have hsources : (raise src info s).state.faults.sources = (raiseRecord src info s).faults.sources := by
    rw [raise_state, raiseStopped, hstop]
  have hfirst : (raise src info s).state.faults.first = (raiseRecord src info s).faults.first := by
    rw [raise_state, raiseStopped, hstop]
  have hsource : ∀ x, sourceState (raise src info s).state x = sourceState (raiseRecord src info s) x := fun x =>
    congrArg (·[x.id]) hsources
  refine ⟨fun h => ?_, fun h => ?_, ?_, fun other hne => ?_, ?_, ?_, ?_⟩
  · rw [hfirst, raiseRecord_first, if_pos h]
  · rw [hfirst, raiseRecord_first, if_neg (by rw [h]; exact nofun)]
  · rw [hsource, raiseRecord_same]
  · rw [hsource, raiseRecord_other info s hne]
  · rw [raise_state]
    rfl
  · rw [raise_eq]
    rfl
  · rw [raise_state, raiseStopped, hstop, hheld]
    exact ⟨_, _, _, _, rfl⟩

theorem holdScope_iff {src : FaultSource} {info : RaiseInfo} {s : State} {a : Axis} :
    AxisSet.has (holdScope src info s &&& s.settings.fitted) a = true ↔
      AxisSet.has s.settings.fitted a = true ∧ heldByRaise info s a src := by
  rw [AxisSet.has_and, Bool.and_eq_true, and_comm]
  refine and_congr_right fun hf => ?_
  have haxes : AxisSet.has (info.axes.getD 0#8) a = true ↔ ∃ x, info.axes = some x ∧ AxisSet.has x a = true := by
    cases info.axes <;> simp [AxisSet.has]
  have howned : AxisSet.has (match info.master with | some m => ownedBy s m | none => 0#8) a = true ↔
      ∃ m, info.master = some m ∧ (s.authority.get a).owner = some m := by
    cases info.master <;> simp [ownedBy, ownerOf]
  cases src
  case driveSilent | driveFault | following | axisLimit | zoneEntry => exact haxes
  case linkAError | linkBError | linkSError | staleA | staleB | staleS => exact howned
  case busSyncLost | genlockLost | configInvalid => exact iff_of_true hf trivial
  case estop | stopOverrun => exact iff_of_false (by simp [holdScope]) id

theorem raise_holds (src : FaultSource) (info : RaiseInfo) {s : State} (hn : (s.queue.map Move.id).Nodup) :
    raiseHolds src info s (raiseHeld src info s).state (raiseHeld src info s).posts := by
  refine ⟨fun h => ?_, fun h => ?_⟩
  · have hheld : raiseHeld src info s = quiet s := by
      unfold raiseHeld
      rw [h]
      rfl
    rw [hheld]
    exact ⟨rfl, rfl⟩
  · have hheld : raiseHeld src info s = holdAction (holdScope src info s) s := by
      unfold raiseHeld
      rw [h]
      rfl
    rw [hheld]
    refine ⟨⟨_, _, rfl⟩, withdraw_movesWithout _ fun a => holdScope_iff.symm, ?_, fun a => ⟨fun ha => ?_, fun ha => ?_⟩⟩
    · exact congrArg Emit.posts (withdraw_eq (s := holdAxes _ s) hn)
    · show (mapAt _ Blend.toHold s.blend).get a = _
      rw [mapAt_get, if_pos (holdScope_iff.2 ha)]
      rfl
    · show (mapAt _ Blend.toHold s.blend).get a = _
      rw [mapAt_get, if_neg (mt holdScope_iff.1 ha)]

end Sys2Proof.Machine
end

section
/-! PROOFS. The stop of a raise, and O49. -/

namespace Sys2Proof.Machine

/-- The state in which a raise stops: HOLD taken, and the raise recorded. -/
def raiseReady (src : FaultSource) (info : RaiseInfo) (s : State) : State :=
  { (raiseHeld src info s).state with faults := (raiseRecord src info s).faults }

theorem raiseReady_safeStop (src : FaultSource) (info : RaiseInfo) (s : State) :
    (raiseReady src info s).faults.safeStop = s.faults.safeStop :=
  (raiseRecord_unit src info s).2.1

section Stop
variable {src : FaultSource} {info : RaiseInfo} {s : State}

theorem raiseReady_held : ∃ bl q, raiseReady src info s =
    { s with blend := bl, queue := q, faults := (raiseRecord src info s).faults } := by
  obtain ⟨bl, q, hheld⟩ := raiseHeld_eq src info s
  exact ⟨bl, q, by rw [raiseReady, hheld]⟩

/-- A raise that stops nothing leaves the safe stop, the bus and the moves. -/
theorem raise_stands (h : raiseStopped src info s = quiet (raiseReady src info s)) :
    let t := (raise src info s).state
    let mid := (raiseHeld src info s).state
    t.faults.safeStop = s.faults.safeStop ∧ t.faults.stopTimer = s.faults.stopTimer ∧
      t.faults.cause = s.faults.cause ∧ t.bus = s.bus ∧ t.blend = mid.blend ∧ t.queue = mid.queue ∧
      (raiseStopped src info s).posts = [] := by
  obtain ⟨_, hsafe, htimer⟩ := raiseRecord_unit src info s
  obtain ⟨_, hcause⟩ := raiseRecord_stands src info s
  obtain ⟨bl, q, hheld⟩ := raiseHeld_eq src info s
  dsimp only
  rw [raise_state, h]
  refine ⟨hsafe, htimer, hcause, ?_, rfl, rfl, rfl⟩
  show (raiseHeld src info s).state.bus = s.bus
  rw [hheld]

theorem raiseStopped_other (hne : src ≠ .estop) : raiseStopped src info s =
    whenever (actionSet s src).safeStop (safeStopEntry (.source src)) (raiseReady src info s) := by
  obtain ⟨bl, q, hready⟩ := raiseReady_held (src := src) (info := info) (s := s)
  have hstops : raiseStopped src info s = raiseStops src (raiseReady src info s) := rfl
  rw [hstops, raiseStops, if_neg hne, actionSet_of_settings (s := s) (by rw [hready])]

theorem raise_other_stands (hne : src ≠ .estop)
    (h : (actionSet s src).safeStop = false ∨ s.faults.safeStop ≠ .normal) :
    raiseStopped src info s = quiet (raiseReady src info s) := by
  rw [raiseStopped_other hne]
  cases hstop : (actionSet s src).safeStop
  case false => rfl
  case true =>
    rw [hstop] at h
    exact (whenever_true _ _).trans (safeStopEntry_else ((raiseReady_safeStop src info s).symm ▸ h.resolve_left nofun))

/-- SAFE_STOP in NORMAL enters the safe stop from where HOLD left the state. -/
theorem raise_enters (hne : src ≠ .estop) (hacts : (actionSet s src).safeStop = true)
    (hn : s.faults.safeStop = .normal) : entersStop (.source src) (raiseHeld src info s).state
      (raise src info s).state (raiseStopped src info s).posts := by
  have henters := safeStopEntry_normal (c := .source src) ((raiseReady_safeStop src info s).trans hn)
  have hstopped : raiseStopped src info s = safeStopEntry (.source src) (raiseReady src info s) := by
    rw [raiseStopped_other hne, hacts, whenever_true]
  rw [raise_state, hstopped]
  exact henters

theorem raise_estop_held : raiseHeld .estop info s = quiet s := rfl

theorem raiseStopped_estop : raiseStopped .estop info s = releaseAction (raiseReady .estop info s) := rfl

/-- RELEASE from NORMAL and from STOPPING. -/
theorem releaseAction_normal (hn : s.faults.safeStop = .normal) :
    releaseAction s = (haltEverything s).andThen fun t => enterReleased (setStopCause .estop t) := by
  unfold releaseAction
  rw [hn]

theorem releaseAction_stopping (hn : s.faults.safeStop = .stopping) :
    releaseAction s = releasedFrom (setStopCause .estop s) := by
  unfold releaseAction
  rw [hn, enterReleased_eq]

theorem releaseAction_released (hn : s.faults.safeStop = .released) : releaseAction s = quiet s := by
  unfold releaseAction
  rw [hn]

/-- RELEASE enters RELEASED with the cause ESTOP, whatever it leaves of the rest. -/
theorem releaseAction_enters (hn : s.faults.safeStop ≠ .released) :
    ∃ t : State, (releaseAction s).state = (releasedFrom t).state ∧ t.faults.cause = .estop := by
  cases hstop : s.faults.safeStop
  case normal => exact ⟨setStopCause .estop (haltEverything s).state, by
    rw [releaseAction_normal hstop, andThen_state, enterReleased_eq], rfl⟩
  case stopping => exact ⟨_, congrArg Emit.state (releaseAction_stopping hstop), rfl⟩
  case released => exact absurd hstop hn

theorem raise_estop_releases (hn : s.faults.safeStop ≠ .released) :
    let t := (raise .estop info s).state
    t.faults.cause = .estop ∧ t.faults.safeStop = .released ∧ t.faults.stopTimer = none ∧ t.queue = [] ∧
      t.bus.latch = true ∧ ∀ a, isEnabled t a = false := by
  obtain ⟨t, hrelease, hcause⟩ := releaseAction_enters (s := raiseReady .estop info s)
    ((raiseReady_safeStop .estop info s).symm ▸ hn)
  dsimp only
  rw [raise_state, raiseStopped_estop, hrelease]
  exact ⟨hcause, rfl, rfl, rfl, rfl, isEnabled_releasedFrom t⟩

theorem raise_estop_stopping (hn : s.faults.safeStop = .stopping) :
    (raise .estop info s).state.blend = s.blend ∧
      (raiseStopped .estop info s).posts = doneNotices s (fun _ => .fault) s.queue := by
  have hrelease := releaseAction_stopping (s := raiseReady .estop info s)
    ((raiseReady_safeStop .estop info s).symm ▸ hn)
  rw [raise_state, raiseStopped_estop, hrelease]
  exact ⟨rfl, rfl⟩

theorem raise_estop_normal (hn : s.faults.safeStop = .normal) :
    (∀ a, (raise .estop info s).state.blend.get a = { s.blend.get a with mode := .hold, trim := 0, weight := 0 }) ∧
      (raiseStopped .estop info s).posts =
        doneNotices s (fun _ => .fault) (s.queue.filter fun m => m.state == .queued) ++
          doneNotices s (fun _ => .fault) (s.queue.filter fun m => m.state != .queued) := by
  have hrelease := releaseAction_normal (s := raiseReady .estop info s)
    ((raiseReady_safeStop .estop info s).symm ▸ hn)
  rw [raise_state, raiseStopped_estop, hrelease]
  refine ⟨fun a => ?_, halt_releases .estop (raiseReady .estop info s)⟩
  rw [andThen_state, enterReleased_eq]
  exact haltEverything_blend (raiseReady .estop info s) a

end Stop

/-- Settles O49: a raise is its record, HOLD on the axes of its source, its stop, and DELAY. -/
theorem raisesRecordNotifyAndStop : Obligations.RaisesRecordNotifyAndStop := by
  refine ⟨fun src info s hn => ?raise, fun c s => ?entry⟩
  case raise =>
    refine ⟨(raiseHeld src info s).state, (raiseHeld src info s).posts, (raiseStopped src info s).posts,
      raise_records src info s, raise_holds src info hn, fun hne hstop => ?_, fun hne hacts hnormal => ?_,
      fun he hreleased => ?_, fun he hnot => ?_⟩
    · exact raise_stands (raise_other_stands hne hstop)
    · exact raise_enters hne hacts hnormal
    · subst he
      exact raise_stands (raiseStopped_estop.trans (releaseAction_released ((raiseReady_safeStop _ _ _).trans hreleased)))
    · subst he
      obtain ⟨hcause, hsafe, htimer, hqueue, hlatch, henable⟩ := raise_estop_releases (info := info) hnot
      exact ⟨hcause, hsafe, htimer, hqueue, hlatch, henable, raise_estop_stopping, raise_estop_normal⟩
  case entry => exact ⟨fun h => safeStopEntry_else h, fun h => safeStopEntry_normal h⟩

end Sys2Proof.Machine
end

section
/-! PROOFS. The E-STOP input and the two timers (O50). -/

namespace Sys2Proof.Machine

theorem reached_iff {s : State} {t : Nat} : reached s t = true ↔ t ≤ s.timebase.ms := by
  unfold reached
  exact decide_eq_true_iff

theorem ready_iff {s : State} : ready s = true ↔ s.startup.phase = .ready := by
  unfold ready
  exact beq_iff_eq

/-- A raise of ESTOP leaves the safe stop RELEASED. -/
theorem raise_estop_safeStop (info : RaiseInfo) (s : State) :
    (raise .estop info s).state.faults.safeStop = .released := by
  by_cases hr : s.faults.safeStop = .released
  · have hquiet : raiseStopped .estop info s = quiet (raiseReady .estop info s) :=
      raiseStopped_estop.trans (releaseAction_released ((raiseReady_safeStop _ _ _).trans hr))
    exact (raise_stands hquiet).1.trans hr
  · exact (raise_estop_releases hr).2.1

theorem estopActivates_active {s : State} (h : s.faults.estopActive = true) : estopActivates s = quiet s := if_pos h

theorem estopActivates_inactive {s : State} (h : s.faults.estopActive = false) : estopActivates s =
    whenever (ready s) (raise .estop RaiseInfo.bare) (releaseDrives (setEstop true s)) :=
  if_neg (by rw [h]; exact nofun)

theorem escalationExpiry_due {s : State} {t : Nat} (ht : s.faults.escalation = some t) (hd : t ≤ s.timebase.ms) :
    escalationExpiry s = safeStopEntry .escalation { s with faults := { s.faults with escalation := none } } := by
  unfold escalationExpiry
  rw [ht]
  exact if_pos (reached_iff.2 hd)

theorem escalationExpiry_waits {s : State} (h : ∀ t, s.faults.escalation = some t → s.timebase.ms < t) :
    escalationExpiry s = quiet s := by
  unfold escalationExpiry
  cases ht : s.faults.escalation
  case none => rfl
  case some t => exact if_neg fun hd => Nat.not_le_of_gt (h t ht) (reached_iff.1 hd)

theorem stopTimerExpiry_due {s : State} {t : Nat} (ht : s.faults.stopTimer = some t)
    (hs : s.faults.safeStop = .stopping) (hd : t ≤ s.timebase.ms) :
    stopTimerExpiry s = (raise .stopOverrun carriesNothing s).andThen releasedFrom := by
  unfold stopTimerExpiry
  rw [ht, ← funext enterReleased_eq]
  exact if_pos ⟨hs, reached_iff.2 hd⟩

theorem stopTimerExpiry_waits {s : State}
    (h : s.faults.safeStop ≠ .stopping ∨ ∀ t, s.faults.stopTimer = some t → s.timebase.ms < t) :
    stopTimerExpiry s = quiet s := by
  unfold stopTimerExpiry
  cases ht : s.faults.stopTimer
  case none => rfl
  case some t =>
    exact if_neg fun ⟨hs, hd⟩ => h.elim (absurd hs) fun hw => Nat.not_le_of_gt (hw t ht) (reached_iff.1 hd)

theorem event_quiet {f : State → Emit} {s : State} {dt : Nat} (h : f (elapse dt s) = quiet (elapse dt s)) :
    event dt f s = .next (elapse dt s) := by
  unfold event
  rw [h, quiet_settle]

theorem event_of {f : State → Emit} {s : State} {dt : Nat} {e : Emit} (h : f (elapse dt s) = e) :
    event dt f s = .next e.settle := by
  unfold event
  rw [h]

theorem event_state {dt : Nat} {f : State → State} {s t : State} (h : f (elapse dt s) = t) :
    event dt (fun s => quiet (f s)) s = .next t := by
  rw [event_of (f := fun s => quiet (f s)) rfl, h, quiet_settle]

/-- Settles O50: the E-STOP input, and the two timers when they are due and before. -/
theorem estopAndTimersAct : Obligations.EstopAndTimersAct := by
  unfold Obligations.EstopAndTimersAct
  intro dt s s1 u released
  refine ⟨fun h => event_quiet (estopActivates_active h), fun h hp => ?early, fun h hp => ⟨?raises, ?state⟩, rfl,
    fun t ht hd => event_of (escalationExpiry_due ht hd), fun h => event_quiet (escalationExpiry_waits h),
    fun t ht hs hd => event_of (stopTimerExpiry_due ht hs hd), fun h => event_quiet (stopTimerExpiry_waits h)⟩
  case early =>
    have hready : ready s1 = false := Bool.eq_false_iff.2 (mt ready_iff.1 hp)
    have hearly : estopActivates s1 = quiet (releaseDrives (setEstop true s1)) := by
      rw [estopActivates_inactive h, hready, whenever_false]
    exact event_of hearly
  case raises =>
    have hready : ready s1 = true := ready_iff.2 hp
    have hraises : estopActivates s1 = raise .estop carriesNothing (releaseDrives (setEstop true s1)) := by
      rw [estopActivates_inactive h, hready, whenever_true]
      rfl
    exact event_of hraises
  case state => exact raise_estop_safeStop _ _

end Sys2Proof.Machine
end

section
/-! PROOFS. The requests of fault control (O51). -/

namespace Sys2Proof.Machine

/-! ## The sources and their conditions -/

theorem FaultSource.all_ids : FaultSource.all.map (fun src => src.id.val) = List.range 16 := rfl

theorem FaultSource.ofId?_id (src : FaultSource) : FaultSource.ofId? src.id.val = some src := by cases src <;> rfl

theorem FaultSource.exists_id {n : Nat} (hn : n < 16) : ∃ src : FaultSource, src.id.val = n := by
  have hmem : n ∈ FaultSource.all.map (fun src => src.id.val) := FaultSource.all_ids ▸ List.mem_range.2 hn
  obtain ⟨src, -, hid⟩ := List.mem_map.1 hmem
  exact ⟨src, hid⟩

theorem FaultSource.ofId?_none {n : Nat} (hn : ¬ n < 16) : FaultSource.ofId? n = none := by
  unfold FaultSource.ofId?
  split
  case h_17 => rfl
  all_goals exact absurd (by decide) hn

theorem drivesInFault_iff {s : State} {x : AxisSet} : drivesInFault s x = true ↔
    ∃ a, AxisSet.has x a = true ∧ (s.bus.drives.get a).state = .fault := by
  unfold drivesInFault
  rw [members_any]
  simp

theorem conditionPersists_iff {s : State} {src : FaultSource} : conditionPersists s src = true ↔
    (src = .estop ∧ s.faults.estopActive = true) ∨
    (src = .busSyncLost ∧ s.bus.sync = .lost) ∨
    (src = .driveFault ∧ ∃ a, AxisSet.has (sourceState s .driveFault).axes a = true ∧
      (s.bus.drives.get a).state = .fault) ∨
    (∃ m, src = staleOf m ∧ (s.joysticks.get m).stale = .stale) ∨
    (src = .genlockLost ∧ s.timecode.lock = .lost) := by
  have hmaster : ∀ p : Master → Prop, (∃ m, p m) ↔ p .consoleA ∨ p .consoleB ∨ p .supervisor := fun p =>
    ⟨fun ⟨m, hm⟩ => by cases m <;> simp [hm], fun h => h.elim (⟨_, ·⟩) (·.elim (⟨_, ·⟩) (⟨_, ·⟩))⟩
  rw [hmaster]
  cases src <;> simp [staleOf, conditionPersists, drivesInFault_iff, PerMaster.get]

theorem sourcesAndConditions_hold : sourcesAndConditions :=
  ⟨rfl, FaultSource.all_ids, fun _ _ => conditionPersists_iff⟩

/-! ## SET FAULT ACTIONS and SET FAULT TIMERS -/

theorem judgeEscalation_eq (s : State) : judgeEscalation s = { s with
    faults := { s.faults with escalation := if delayFlag s then s.faults.escalation else none } } := by
  unfold judgeEscalation
  split <;> rfl

theorem judgeFirstFault_eq (s : State) : judgeFirstFault s = { s with
    faults := { s.faults with first := if anyFlag s then s.faults.first else none } } := by
  unfold judgeFirstFault
  split <;> rfl

theorem delayFlag_iff {s : State} :
    delayFlag s = true ↔ ∃ x, flagSet s x = true ∧ (actionSet s x).delay = true := by
  unfold delayFlag
  rw [List.any_eq_true]
  simp [FaultSource.mem_all]

/-- The action set of an octet. -/
def octetActions (k : Nat) : ActionSet :=
  { notice := k.testBit 0, hold := k.testBit 1, delay := k.testBit 2, safeStop := k.testBit 3
    faultLine := k.testBit 4 }

theorem FaultSource.configurable_iff {src : FaultSource} : 2 ≤ src.id.val ↔ ¬ (src = .estop ∨ src = .stopOverrun) := by
  cases src <;> decide

theorem setFaultActions_eq (src : FaultSource) (k : Nat) (s : State) : setFaultActions src.id.val k s =
    if 2 ≤ src.id.val ∧ k < 32 then
      accept (judgeEscalation { s with
        settings := { s.settings with actions := s.settings.actions.set src.id (octetActions k) } }) .none
    else refuse s .badArgument := by
  unfold setFaultActions actionsOf
  rw [FaultSource.ofId?_id]
  by_cases hk : k < 32
  · rw [if_pos hk]
    by_cases hfixed : src = .estop ∨ src = .stopOverrun
    · rw [if_neg fun h => FaultSource.configurable_iff.1 h.1 hfixed]
      exact if_pos hfixed
    · rw [if_pos ⟨FaultSource.configurable_iff.2 hfixed, hk⟩]
      exact if_neg hfixed
  · rw [if_neg hk, if_neg fun h => hk h.2]

theorem setFaultActions_refuses {n k : Nat} {s : State} (h : ¬ (2 ≤ n ∧ n ≤ 15 ∧ k < 32)) :
    setFaultActions n k s = refuse s .badArgument := by
  by_cases hn : n < 16
  · obtain ⟨src, rfl⟩ := FaultSource.exists_id hn
    rw [setFaultActions_eq, if_neg fun hok => h ⟨hok.1, by omega, hok.2⟩]
  · unfold setFaultActions
    rw [FaultSource.ofId?_none hn]

theorem setFaultActions_judged {h : Header} {s s0 : State} {n k : Nat} (hp : actsAsSupervisor s0 h.link = true)
    (ht : taken (.setFaultActions h n k) s s0) : judged h s0 (exec (.setFaultActions h n k) s)
      [(2 ≤ n ∧ n ≤ 15 ∧ k < 32, .badArgument)]
      (∀ src : FaultSource, src.id.val = n →
        let s2 : State := { s0 with settings := { s0.settings with
          actions := s0.settings.actions.set src.id (octetActions k) } }
        let wanted := ∃ x, flagSet s0 x = true ∧ (actionSet s2 x).delay = true
        (wanted → exec (.setFaultActions h n k) s = .next (okay h .none s2)) ∧
        (¬ wanted → exec (.setFaultActions h n k) s = .next (okay h .none
          { s2 with faults := { s0.faults with escalation := none } }))) := by
  have hbody : requestBody (.setFaultActions h n k) s0 = setFaultActions n k s0 := privileged_yes hp _
  refine ⟨fun hno => exec_refuses rfl rfl ht (hbody.trans (setFaultActions_refuses hno)), fun hok src hid => ?_⟩
  subst hid
  intro s2 wanted
  have haccepts : setFaultActions src.id.val k s0 = accept (judgeEscalation s2) .none :=
    (setFaultActions_eq src k s0).trans (if_pos ⟨hok.1, hok.2.2⟩)
  refine ⟨fun hw => exec_accepts rfl rfl ht (hbody.trans (haccepts.trans ?_)),
    fun hw => exec_accepts rfl rfl ht (hbody.trans (haccepts.trans ?_))⟩
  · exact congrArg (accept · _) (if_pos (delayFlag_iff.2 hw))
  · exact congrArg (accept · _) (if_neg (mt delayFlag_iff.1 hw))

theorem setFaultTimers_judged {h : Header} {s s0 : State} {n k : Nat} (hp : actsAsSupervisor s0 h.link = true)
    (ht : taken (.setFaultTimers h n k) s s0) : judged h s0 (exec (.setFaultTimers h n k) s)
      [(1 ≤ n ∧ n ≤ 1000 ∧ 1 ≤ k ∧ k ≤ 100, .badArgument)]
      (exec (.setFaultTimers h n k) s = .next (okay h .none
        { s0 with settings := { s0.settings with escalationDelay := n, stopTime := k } })) := by
  have hbody : requestBody (.setFaultTimers h n k) s0 = setFaultTimers n k s0 := privileged_yes hp _
  have hrange : (numberWithin 1 1000 n && numberWithin 1 100 k) = true ↔ 1 ≤ n ∧ n ≤ 1000 ∧ 1 ≤ k ∧ k ≤ 100 := by
    rw [Bool.and_eq_true, numberWithin_iff, numberWithin_iff, and_assoc]
  refine ⟨fun hno => exec_refuses rfl rfl ht (hbody.trans ?_), fun hok => exec_accepts rfl rfl ht (hbody.trans ?_)⟩
  · exact if_neg (mt hrange.1 hno)
  · exact if_pos (hrange.2 hok)

/-! ## FAULT CLEAR -/

/-- The sources written over. -/
def State.withSources (s : State) (v : Vector SourceState 16) : State :=
  { s with faults := { s.faults with sources := v } }

theorem clearSource_withSources (src : FaultSource) (s : State) : ∃ v, clearSource src s = s.withSources v := by
  unfold clearSource
  split
  · exact ⟨_, rfl⟩
  · exact ⟨s.faults.sources, rfl⟩

/-- Clearing sources writes the sources alone. -/
theorem clearSources_withSources (l : List FaultSource) (s : State) :
    ∃ v, l.foldl (fun s src => clearSource src s) s = s.withSources v := by
  induction l generalizing s with
  | nil => exact ⟨s.faults.sources, rfl⟩
  | cons src l ih =>
    obtain ⟨v, hv⟩ := clearSource_withSources src s
    obtain ⟨v', hv'⟩ := ih (clearSource src s)
    exact ⟨v', by rw [List.foldl_cons, hv', hv]; rfl⟩

/-- Whether a FAULT CLEAR that names a source clears it. -/
def clears (s : State) (src : FaultSource) : Prop := conditionPersists s src = false ∧ flagSet s src = true

theorem clears_iff {s : State} {src : FaultSource} :
    (flagSet s src && !conditionPersists s src) = true ↔ clears s src := by
  simp [clears, and_comm]

theorem clearSource_clears {src : FaultSource} {s : State} (h : clears s src) :
    clearSource src s = s.setSource src SourceState.reset := if_pos (clears_iff.2 h)

theorem clearSource_stays {src : FaultSource} {s : State} (h : ¬ clears s src) : clearSource src s = s :=
  if_neg (mt clears_iff.1 h)

theorem clearSource_other {src other : FaultSource} (s : State) (h : other ≠ src) :
    sourceState (clearSource src s) other = sourceState s other := by
  unfold clearSource
  split
  · exact sourceState_setSource_other s _ h
  · rfl

/-- Whether a source's condition persists does not turn on the other sources. -/
theorem conditionPersists_withSources {s : State} {v : Vector SourceState 16} {src : FaultSource}
    (h : sourceState (s.withSources v) src = sourceState s src) :
    conditionPersists (s.withSources v) src = conditionPersists s src := by
  cases src
  case driveFault => exact congrArg (fun x : SourceState => drivesInFault s x.axes) h
  all_goals rfl

theorem clears_clearSource_other {src other : FaultSource} (s : State) (h : other ≠ src) :
    clears (clearSource src s) other ↔ clears s other := by
  have hsame := clearSource_other s h
  obtain ⟨v, hv⟩ := clearSource_withSources src s
  unfold clears flagSet
  rw [hsame]
  rw [hv] at hsame ⊢
  rw [conditionPersists_withSources hsame]

open Classical in
/-- Each named source is cleared where its flag is set and its condition does not persist. -/
theorem clearSources_source (l : List FaultSource) (s : State) (src : FaultSource) :
    sourceState (l.foldl (fun s src => clearSource src s) s) src =
      if src ∈ l ∧ clears s src then SourceState.reset else sourceState s src := by
  induction l generalizing s with
  | nil => rw [List.foldl_nil, if_neg fun h => nomatch h.1]
  | cons x l ih =>
    rw [List.foldl_cons, ih]
    by_cases hx : src = x
    · subst hx
      by_cases hc : clears s src
      · rw [clearSource_clears hc, sourceState_setSource_same, ite_self, if_pos ⟨List.mem_cons_self, hc⟩]
      · rw [clearSource_stays hc, if_neg fun h => hc h.2, if_neg fun h => hc h.2]
    · rw [clears_clearSource_other s hx, clearSource_other s hx]
      simp [hx]

theorem faultClear_accepts {x : BitVec 16} (s : State) (hx : x ≠ 0#16) : faultClear x s =
    accept (judgeFirstFault (judgeEscalation ((namedSources x).foldl (fun s src => clearSource src s) s)))
      (.sources ((namedSources x).filter (flagSet ((namedSources x).foldl (fun s src => clearSource src s) s)))) :=
  if_neg hx

theorem mem_namedSources {x : BitVec 16} {src : FaultSource} : src ∈ namedSources x ↔ x.getLsbD src.id = true := by
  simp [namedSources, FaultSource.mem_all]

open Classical in
/-- What a FAULT CLEAR leaves of each source. -/
theorem clearNamed_source (x : BitVec 16) (s : State) (src : FaultSource) :
    sourceState ((namedSources x).foldl (fun s src => clearSource src s) s) src =
      if x.getLsbD src.id = true ∧ conditionPersists s src = false ∧ flagSet s src = true
      then { flag := false, axes := 0#8 } else sourceState s src := by
  rw [clearSources_source]
  by_cases hc : x.getLsbD src.id = true ∧ conditionPersists s src = false ∧ flagSet s src = true
  · rw [if_pos hc, if_pos ⟨mem_namedSources.2 hc.1, hc.2⟩]
    rfl
  · rw [if_neg hc, if_neg fun h => hc ⟨mem_namedSources.1 h.1, h.2⟩]

/-- The named sources that stay set are those whose flag is set and whose condition persists. -/
theorem clearNamed_listed (x : BitVec 16) (s : State) :
    (namedSources x).filter (flagSet ((namedSources x).foldl (fun s src => clearSource src s) s)) =
      FaultSource.all.filter fun src => x.getLsbD src.id && flagSet s src && conditionPersists s src := by
  refine (List.filter_filter ..).trans (List.filter_congr fun src _ => ?_)
  have hflag : flagSet ((namedSources x).foldl (fun s src => clearSource src s) s) src =
      if x.getLsbD src.id = true ∧ conditionPersists s src = false ∧ flagSet s src = true then false
      else flagSet s src := by
    rw [flagSet, clearNamed_source, apply_ite SourceState.flag]
    rfl
  rw [hflag]
  cases x.getLsbD src.id <;> cases conditionPersists s src <;> cases flagSet s src <;> rfl

theorem faultClear_judged {h : Header} {s s0 : State} {x : BitVec 16} (hp : actsAsSupervisor s0 h.link = true)
    (ht : taken (.faultClear h x) s s0) :
    judged h s0 (exec (.faultClear h x) s) [(x ≠ 0#16, .badArgument)]
      (∃ f : FaultUnit, let t : State := { s0 with faults := f }
        exec (.faultClear h x) s = .next (okay h (.sources (FaultSource.all.filter fun src =>
          x.getLsbD src.id && flagSet s0 src && conditionPersists s0 src)) t) ∧
        (∀ src, sourceState t src =
          if x.getLsbD src.id = true ∧ conditionPersists s0 src = false ∧ flagSet s0 src = true
          then { flag := false, axes := 0#8 } else sourceState s0 src) ∧
        f.escalation = (if FaultSource.all.any fun src => flagSet t src && (actionSet s0 src).delay
          then s0.faults.escalation else none) ∧
        f.first = (if FaultSource.all.any (flagSet t) then s0.faults.first else none) ∧
        f.safeStop = s0.faults.safeStop ∧ f.cause = s0.faults.cause ∧
        f.stopTimer = s0.faults.stopTimer ∧ f.estopActive = s0.faults.estopActive) := by
  have hbody : requestBody (.faultClear h x) s0 = faultClear x s0 := privileged_yes hp _
  refine ⟨fun hno => exec_refuses rfl rfl ht (hbody.trans (if_pos (Classical.not_not.1 hno))), fun hx => ?_⟩
  have haccepts := faultClear_accepts s0 hx
  have hsource := clearNamed_source x s0
  rw [clearNamed_listed] at haccepts
  obtain ⟨v, hv⟩ := clearSources_withSources (namedSources x) s0
  rw [hv] at haccepts hsource
  rw [judgeFirstFault_eq, judgeEscalation_eq] at haccepts
  exact ⟨_, exec_accepts rfl rfl ht (hbody.trans haccepts), hsource, rfl, rfl, rfl, rfl, rfl, rfl⟩

/-! ## RELEASE CLEAR -/

theorem releaseClear_judged : releaseClearReturnsToNormal := by
  intro h s s0 ht l
  refine ⟨fun hno => exec_refuses rfl rfl ht (if_pos ?_), fun hestop => ⟨fun hno => exec_refuses rfl rfl ht ?_,
    fun hstop => ?_⟩⟩
  · exact Bool.not_eq_false _ ▸ hno
  · exact (if_neg (by rw [hestop]; exact nofun)).trans (if_pos (Classical.not_not.1 hno))
  · have hpast : releaseClear s0 = _ :=
      (if_neg (by rw [hestop]; exact nofun)).trans (if_neg hstop)
    refine ⟨fun hl => ?_, fun hl => exec_accepts rfl rfl ht (hpast.trans (if_neg (Classical.not_not.2 hl)))⟩
    rw [exec_taken rfl rfl ht]
    exact congrArg (fun r => Host.Outcome.next (answer h r)) (hpast.trans (if_pos hl))

/-- Settles O51: the sources and their conditions, and the requests of the fault unit in the order of their checks. -/
theorem faultRequestsSetClearAndReturn : Obligations.FaultRequestsSetClearAndReturn :=
  ⟨sourcesAndConditions_hold,
    ⟨fun _ _ _ _ _ hp => ⟨setFaultActions_judged hp, setFaultTimers_judged hp⟩,
      fun _ _ _ _ ht hp => faultClear_judged hp ht⟩,
    releaseClear_judged⟩

end Sys2Proof.Machine
end

section
/-! PROOFS. The resets (O52). -/

namespace Sys2Proof.Machine

theorem firstPhase_eq (low supply : Bool) :
    firstPhase low supply = if low ∨ supply then Phase.inReset else .hold := by
  cases low <;> cases supply <;> rfl

theorem clearsStore_iff {c : ResetCause} : clearsStore c = true ↔ c = .powerOn ∨ c = .lowSupply := by
  cases c <;> decide

theorem recordedCause_eq (s : State) (c : ResetCause) : recordedCause s c =
    if s.startup.phase ≠ .ready ∧ (s.startup.cause = .powerOn ∨ s.startup.cause = .lowSupply)
    then s.startup.cause else c := by
  have hiff : (!(ready s) && clearsStore s.startup.cause) = true ↔
      s.startup.phase ≠ .ready ∧ (s.startup.cause = .powerOn ∨ s.startup.cause = .lowSupply) := by
    rw [Bool.and_eq_true, clearsStore_iff, Bool.not_eq_true', Bool.eq_false_iff, ne_eq, ready_iff]
  unfold recordedCause
  exact ite_congr (propext hiff) (fun _ => rfl) fun _ => rfl

/-- A reset in the words of the statement. -/
theorem takeReset_eq (c : ResetCause) (s : State) : takeReset c s =
    resetFrom s c s.startup.resetLow s.startup.supplyLow (!(clearsStore c)) := by
  unfold takeReset resetStartup resetFrom
  rw [firstPhase_eq, recordedCause_eq]
  cases clearsStore c <;> rfl

theorem resetRelease_eq (s : State) : resetRelease s = { s with startup := { s.startup with
    resetLow := false
    phase := if s.startup.phase = .inReset ∧ s.startup.supplyLow = false then .hold else s.startup.phase } } := by
  unfold resetRelease
  by_cases h : s.startup.phase = .inReset ∧ s.startup.supplyLow = false
  · rw [if_pos h]
    exact if_pos h
  · rw [if_neg h]
    exact if_neg h

/-- The two checks of a RESTART from a master with the privilege. -/
theorem restartRefusal_firstFailing {s : State} {m : Master} (hp : actsAsSupervisor s m = true) :
    firstFailing (restartRefusal s m)
      [(∀ a, AxisSet.has s.settings.fitted a = true → isEnabled s a = false, .axesEnabled),
       (s.save = none, .saving)] := by
  have hdriven : (!(anyFittedEnabled s)) = true ↔ ∀ a, AxisSet.has s.settings.fitted a = true → isEnabled s a = false := by
    rw [Bool.not_eq_true', Bool.eq_false_iff, ne_eq, anyFittedEnabled_iff]
    simp
  unfold restartRefusal
  rw [hp, failing_true]
  exact firstFailing_orElse (firstFailing_failing hdriven) (firstFailing_failing Option.isNone_iff_eq_none)

theorem restart_refuses {h : Header} {s : State} {c : RefusalCode} (hc : restartRefusal s h.link = some c) :
    restart h s = refusedWith h c s := by
  unfold restart
  rw [hc]
  exact answer_refuse ..

theorem restart_resets {h : Header} {s : State} (hc : restartRefusal s h.link = none) :
    restart h s = resetFrom s .restart s.startup.resetLow s.startup.supplyLow true := by
  unfold restart
  rw [hc]
  exact takeReset_eq .restart s

/-- Settles O52: every reset leaves its blocks alike, and RESTART is checked first. -/
theorem resetsLeaveEachBlockAtItsReset : Obligations.ResetsLeaveEachBlockAtItsReset := by
  refine ⟨fun dt s => ?events, fun h s s0 ht hp => ?restart⟩
  case events =>
    exact ⟨event_state (takeReset_eq _ _), event_state (takeReset_eq _ _), event_state (takeReset_eq _ _),
      event_state (resetRelease_eq _)⟩
  case restart =>
    have htaken : exec (.restart h) s = .next (restart h s0) := handed_taken ht
    rw [htaken]
    exact judged_of_firstFailing (fun code hc => by rw [restart_refuses hc]) (fun hc => by rw [restart_resets hc])
      (restartRefusal_firstFailing hp)

end Sys2Proof.Machine
end

section
/-! PROOFS. The ranges of a configuration image, as the load judges them (O53). -/

namespace Sys2Proof.Machine

theorem axisAll_iff {p : Axis → Bool} : Axis.all.all p = true ↔ ∀ a, p a = true := by
  rw [List.all_eq_true]
  exact ⟨fun h a => h a (by cases a <;> decide), fun h a _ => h a⟩

theorem zoneNumbers_all {p : Fin 8 → Bool} : zoneNumbers.all p = true ↔ ∀ n, p n = true := by
  have hmem : ∀ n : Fin 8, n ∈ zoneNumbers := by decide
  rw [List.all_eq_true]
  exact ⟨fun h n => h n (hmem n), fun h n _ => h n⟩

theorem masterAll_iff {p : Master → Bool} : Master.all.all p = true ↔ ∀ m, p m = true := by
  rw [List.all_eq_true]
  exact ⟨fun h m => h m (Master.mem_all m), fun h m _ => h m⟩

theorem outside_eq_zero_iff {x y : AxisSet} :
    x &&& ~~~y = 0#8 ↔ ∀ a, AxisSet.has x a = true → AxisSet.has y a = true := by
  rw [AxisSet.eq_zero_iff]
  simp

/-! ## The settings section -/

theorem zoneInRange_iff {f : AxisSet} {z : ZoneSetting} : zoneInRange f z = true ↔
    2 ≤ axisCount z.axes ∧ axisCount z.axes ≤ 3 ∧
      (z.enabled = true → ∀ a, AxisSet.has z.axes a = true → AxisSet.has f a = true) ∧
      ∀ a, let b := z.bounds.get a
        positionRange b.lo ∧ positionRange b.hi ∧ b.lo ≤ b.hi := by
  have hfitted : (!z.enabled || z.axes &&& ~~~f == 0#8) = true ↔
      (z.enabled = true → ∀ a, AxisSet.has z.axes a = true → AxisSet.has f a = true) := by
    rw [← outside_eq_zero_iff]
    cases z.enabled <;> simp
  have hbounds : ∀ a, boundsOk ((z.bounds.get a).lo, (z.bounds.get a).hi) = true ↔
      positionRange (z.bounds.get a).lo ∧ positionRange (z.bounds.get a).hi ∧
        (z.bounds.get a).lo ≤ (z.bounds.get a).hi := fun a => by
    rw [boundsOk_iff]
    unfold positionRange
    dsimp only
    omega
  unfold zoneInRange
  simp only [Bool.and_eq_true, numberWithin_iff, hfitted, axisAll_iff, hbounds, and_assoc]

theorem profileInRange_iff {p : Profile} :
    profileInRange p = true ↔ p.deadband ≤ 511 ∧ p.expo ≤ 256 ∧ p.gain ≤ 65535 := by
  simp [profileInRange, and_assoc]

theorem viewInRange_iff {v : View} :
    viewInRange v = true ↔ v.directory < 4 ∧ 1 ≤ v.length ∧ v.length ≤ 16 ∧ v.key < 16 := by
  simp [viewInRange, numberWithin_iff, and_assoc]

theorem staleLimitInRange_iff {m : Master} {l : Option Nat} : staleLimitInRange m l = true ↔
    (l = none → m = .supervisor) ∧ ∀ n, l = some n → 5 ≤ n ∧ n ≤ 250 := by
  cases l <;> simp [staleLimitInRange, numberWithin_iff]

theorem settingsInRange_iff {x : Settings} : settingsInRange x = true ↔ settingsRanges x := by
  unfold settingsInRange settingsRanges limitsInRange masterInRange
  simp only [Bool.and_eq_true, axisAll_iff, zoneNumbers_all, masterAll_iff, limitsOk_iff, zoneInRange_iff,
    profileInRange_iff, viewInRange_iff, staleLimitInRange_iff, numberWithin_iff, and_assoc]

/-! ## The preset section -/

theorem keyframeInRange_iff {x : AxisSet} {k : Keyframe} : keyframeInRange x k = true ↔
    1 ≤ k.duration ∧ k.duration ≤ 60000 ∧
      ∀ a, (AxisSet.has x a = true → ∃ v, k.targets.get a = some v ∧ positionRange v) ∧
        (AxisSet.has x a = false → k.targets.get a = none) := by
  have htarget : ∀ a, (match k.targets.get a with
      | some t => AxisSet.has x a && isPosition t
      | none => !(AxisSet.has x a)) = true ↔
      (AxisSet.has x a = true → ∃ v, k.targets.get a = some v ∧ positionRange v) ∧
        (AxisSet.has x a = false → k.targets.get a = none) := fun a => by
    cases k.targets.get a <;> cases AxisSet.has x a <;> simp [isPosition_iff, positionRange]
  unfold keyframeInRange
  rw [Bool.and_eq_true, durationOk_iff, and_assoc, axisAll_iff]
  exact and_congr_right fun _ => and_congr_right fun _ => forall_congr' htarget

theorem bodyInRange_iff {b : RecordBody} : bodyInRange b = true ↔
    b.axes ≠ 0#8 ∧ 1 ≤ b.keyframes.length ∧ b.keyframes.length ≤ 8 ∧
      (∀ l, b.label = some l → l.length ≤ 12 ∧ ∀ o ∈ l, 32 ≤ o.toNat ∧ o.toNat ≤ 126) ∧
      ∀ k ∈ b.keyframes, 1 ≤ k.duration ∧ k.duration ≤ 60000 ∧
        ∀ a, (AxisSet.has b.axes a = true → ∃ v, k.targets.get a = some v ∧ positionRange v) ∧
          (AxisSet.has b.axes a = false → k.targets.get a = none) := by
  simp only [← labelOk_iff, ← keyframeInRange_iff]
  unfold bodyInRange
  rw [Bool.and_eq_true, Bool.and_eq_true, Bool.and_eq_true, bne_iff_ne, numberWithin_iff, List.all_eq_true,
    Option.all_eq_true]
  simp only [and_assoc]
  exact and_congr_right fun _ => and_congr_right fun _ => and_congr_right fun _ => and_comm

theorem recordInRange_iff {r : PresetRecord} :
    recordInRange r = true ↔ r.key < 16 ∧ ∀ b, r.body = some b → bodyInRange b = true := by
  unfold recordInRange
  rw [Bool.and_eq_true, decide_eq_true_eq, Option.all_eq_true]

theorem targetInRange_iff {t : BankTarget} : targetInRange t = true ↔
    (∀ n, t = .list n → n < 32) ∧ ∀ b c, t = .run b c → b < 256 ∧ 1 ≤ c ∧ c ≤ 16 := by
  cases t
  case empty => simp [targetInRange]
  case list n => simp [targetInRange]
  case run b c =>
    rw [targetInRange, Bool.and_eq_true, decide_eq_true_eq, numberWithin_iff]
    refine ⟨fun h => ⟨nofun, fun b' c' he => ?_⟩, fun h => h.2 b c rfl⟩
    injection he with hb hc
    rwa [← hb, ← hc]

theorem presetsInRange_iff {p : PresetStore} : presetsInRange p = true ↔ presetRanges p := by
  unfold presetsInRange presetRanges
  simp only [← bodyInRange_iff, ← recordInRange_iff, ← targetInRange_iff]
  simp only [Bool.and_eq_true, List.all_eq_true, decide_eq_true_eq]
  exact ⟨fun ⟨⟨⟨⟨⟨hrecords, hrecord⟩, hcues⟩, hcue⟩, hbanks⟩, hbank⟩ =>
      ⟨hrecords, hcues, hbanks, hcue, hbank, hrecord⟩,
    fun ⟨hrecords, hcues, hbanks, hcue, hbank, hrecord⟩ =>
      ⟨⟨⟨⟨⟨hrecords, hrecord⟩, hcues⟩, hcue⟩, hbanks⟩, hbank⟩⟩

/-! ## The image -/

theorem imageGood_iff {s : State} {i : ConfigImage} : imageGood s i = true ↔
    goodImage (s.startup.cause = .powerOn ∨ s.startup.cause = .lowSupply) i := by
  have hpresets : (!(readsPresets s) || presetsInRange i.presets) = true ↔
      (s.startup.cause = .powerOn ∨ s.startup.cause = .lowSupply → presetRanges i.presets) := by
    rw [← presetsInRange_iff, ← clearsStore_iff]
    unfold readsPresets
    cases clearsStore s.startup.cause <;> simp
  unfold imageGood goodImage
  rw [← settingsInRange_iff, ← hpresets]
  simp only [Bool.and_eq_true, Bool.not_eq_true']
  exact ⟨fun ⟨⟨⟨⟨⟨⟨hf, hl⟩, hc⟩, hv⟩, hm⟩, hs⟩, hp⟩ => ⟨hm, hc, hf, hl, hv, hs, hp⟩,
    fun ⟨hm, hc, hf, hl, hv, hs, hp⟩ => ⟨⟨⟨⟨⟨⟨hf, hl⟩, hc⟩, hv⟩, hm⟩, hs⟩, hp⟩⟩

end Sys2Proof.Machine
end

section
/-! PROOFS. The configuration load and READY (O53). -/

namespace Sys2Proof.Machine

/-- The ports open, and the record of the load stands, at READY. -/
theorem readyWith_eq (source : ConfigSource) (mark : Bool) (s : State) :
    openPorts (setPhase .ready ((recordLoad source mark s).setCache [])) = readyWith source mark s := by
  have hports : (PerMaster.ofFn fun m => if (linksInUse s).contains m then { s.ports.get m with link := .opened }
      else s.ports.get m) = PerMaster.ofFn fun m =>
        if m = .supervisor ∧ s.startup.mode = .standalone then s.ports.get m
        else { s.ports.get m with link := .opened } := by
    refine congrArg PerMaster.ofFn (funext fun m => ?_)
    unfold linksInUse
    cases s.startup.mode <;> cases m <;> rfl
  unfold readyWith
  rw [← hports]
  rfl

theorem reachReady_eq (w : State → Emit) (source : ConfigSource) (mark : Bool) (s : State) :
    reachReady w (recordLoad source mark s) = readyActions (readyWith source mark s) w := by
  unfold reachReady
  rw [readyWith_eq]
  rfl

/-- The record of CONFIG_INVALID does not look at the record of the load. -/
theorem raiseRecord_recordLoad (src : FaultSource) (info : RaiseInfo) (source : ConfigSource) (mark : Bool)
    (s : State) : raiseRecord src info (recordLoad source mark s) = recordLoad source mark (raiseRecord src info s) := by
  have hflags : anyFlag (recordLoad source mark s) = anyFlag s := rfl
  unfold raiseRecord
  rw [hflags]
  cases anyFlag s <;> rfl

theorem loadInvalid_eq (i : ConfigImage) (s : State) : loadInvalid i s = readyActions
    (readyWith .invalid i.marker (raiseRecord .configInvalid carriesNothing { s with settings := Settings.builtIn }))
    (raiseActions .configInvalid carriesNothing (!anyFlag s)) := by
  unfold loadInvalid
  rw [raiseRecord_recordLoad, reachReady_eq]
  rfl

theorem loadedStore_eq (p : PresetStore) : loadedStore p = storeOf p := by
  unfold loadedStore storeOf
  refine congrArg (fun r => { p with records := r }) (List.map_congr_left fun e _ => ?_)
  have hlabel : ∀ b : RecordBody, loadedBody b = { b with label := if b.label = some [] then none else b.label } :=
    fun b => by
      unfold loadedBody
      refine congrArg (fun l => { b with label := l }) ?_
      cases b.label with
      | none => rfl
      | some l => cases l <;> rfl
  unfold loadedRecord
  rw [funext hlabel]

theorem takeImage_eq (i : ConfigImage) (s : State) : takeImage i s = { s with
    settings := i.settings
    store := if s.startup.cause = .powerOn ∨ s.startup.cause = .lowSupply then storeOf i.presets else s.store
    joysticks := if i.settings.staleLimits.get .supervisor = none
      then s.joysticks.set .supervisor { s.joysticks.get .supervisor with stale := .fresh } else s.joysticks } := by
  have hstore : (if readsPresets s then loadedStore i.presets else s.store) =
      if s.startup.cause = .powerOn ∨ s.startup.cause = .lowSupply then storeOf i.presets else s.store :=
    loadedStore_eq i.presets ▸ ite_congr (propext clearsStore_iff) (fun _ => rfl) fun _ => rfl
  have hfresh : freshWhereOff i.settings.staleLimits s.joysticks =
      if i.settings.staleLimits.get .supervisor = none
      then s.joysticks.set .supervisor { s.joysticks.get .supervisor with stale := .fresh } else s.joysticks := by
    unfold freshWhereOff
    show _ = if i.settings.staleLimits.supervisor = none then _ else _
    cases i.settings.staleLimits.supervisor <;> rfl
  unfold takeImage
  rw [hstore, hfresh]

/-- The image that the load reads: the one the memory holds, or the one found. -/
theorem configurationLoad_image {found : MemoryAnswer} {image : ConfigImage} {s : State}
    (hi : (found = .asHeld ∧ image = s.memory) ∨ found = .holding image) (hp : s.startup.phase = .loading) :
    configurationLoad found s = loadImage image { s with memory := image } := by
  rcases hi with ⟨rfl, rfl⟩ | rfl
  · exact if_pos hp
  · exact if_pos hp

theorem holdEnd_hold {pin : OperatingMode} {s : State} (hp : s.startup.phase = .hold) :
    holdEnd pin s = { s with startup := { s.startup with phase := .loading, mode := pin } } := if_pos hp

/-- Settles O53: the hold ends in the load, and the load ends in READY with what it found. -/
theorem startUpLoadsAndReachesReady : Obligations.StartUpLoadsAndReachesReady := by
  unfold Obligations.StartUpLoadsAndReachesReady
  intro dt pin found s s1 u x
  refine ⟨fun hp => event_state (holdEnd_hold hp), fun hp => event_state (if_neg hp),
    fun hp => event_quiet (configurationLoad_idle found hp), fun hp hf => ?silent, fun image hi hp => ?image⟩
  case silent =>
    refine event_of (f := configurationLoad found) ?_
    subst hf
    exact (if_pos hp).trans (reachReady_eq _ _ _ _)
  case image =>
    intro s2 cold j
    have hload : configurationLoad found s1 = loadImage image s2 := configurationLoad_image hi hp
    refine ⟨fun hg => event_of (hload.trans ?_), fun hg => event_of (hload.trans ?_)⟩
    · have hgood : loadImage image s2 = reachReady quiet (recordLoad .memory false (takeImage image s2)) :=
        if_pos (imageGood_iff.2 hg)
      rw [hgood, reachReady_eq, takeImage_eq]
      rfl
    · have hbad : loadImage image s2 = loadInvalid image s2 := if_neg (mt imageGood_iff.1 hg)
      rw [hbad, loadInvalid_eq]

end Sys2Proof.Machine
end

section
/-! PROOFS. Saving (O54). -/

namespace Sys2Proof.Machine

theorem markerWritten_saving {s : State} {v : SaveInFlight} (h : s.save = some v) :
    markerWritten s = { s with memory := { s.memory with marker := true } } :=
  if_pos (Option.isSome_iff_exists.2 ⟨v, h⟩)

theorem markerWritten_idle {s : State} (h : s.save = none) : markerWritten s = s :=
  if_neg (by rw [h]; exact Bool.false_ne_true)

theorem saveCompletion_idle {s : State} (e : SaveEnding) (h : s.save = none) : saveCompletion e s = quiet s := by
  unfold saveCompletion
  rw [h]

theorem saveCompletion_done {s : State} {v : SaveInFlight} (h : s.save = some v) : saveCompletion .done s =
    { state := endSave (setMemory (savedImage v.copied s) s), posts := [⟨v.requester, .saveDone⟩] } := by
  unfold saveCompletion
  rw [h]

theorem saveCompletion_failed {s : State} {v : SaveInFlight} (h : s.save = some v) (step : Nat) (why : SaveFault) :
    saveCompletion (.failed step why) s =
      { state := endSave (failedSave step v.copied s), posts := [⟨v.requester, .saveFailed step why⟩] } := by
  unfold saveCompletion
  rw [h]

/-- A save that fails in step 4 leaves the saved image with its marker set or its check wrong. -/
theorem unreadImage_cases (b : Bool) (x : Settings) (s : State) :
    unreadImage b x s = { savedImage x s with marker := true } ∨
      unreadImage b x s = { savedImage x s with checkMatches := false } := by
  cases b
  · exact .inr rfl
  · exact .inl rfl

/-- The state of an ended save: IDLE, with an image and some free values drawn. -/
def saveEnded (image : ConfigImage) (k : Nat) (s : State) : State :=
  { s with save := none, memory := image, freeDraws := s.freeDraws + k }

theorem endSave_setMemory (image : ConfigImage) (s : State) : endSave (setMemory image s) = saveEnded image 0 s := rfl

theorem failedSave_one (x : Settings) (s : State) : endSave (failedSave 1 x s) = saveEnded s.memory 0 s := rfl

theorem failedSave_two (x : Settings) (s : State) :
    endSave (failedSave 2 x s) = saveEnded { s.memory with marker := true } 0 s := rfl

theorem failedSave_three (x : Settings) (s : State) :
    endSave (failedSave 3 x s) = saveEnded (writtenImage x s) 0 s := rfl

theorem failedSave_four (x : Settings) (s : State) : endSave (failedSave 4 x s) =
    saveEnded (unreadImage (Config.failedSaveLeavesMarker s.freeDraws) x s) 1 s := rfl

theorem exec_saveCompletion {dt k : Nat} {s t : State} {e : SaveEnding} {l : List Post} {image : ConfigImage}
    (he : saveCompletion e (elapse dt s) = { state := t, posts := l }) (ht : t = saveEnded image k (elapse dt s)) :
    exec (.saveCompletion dt e) s = .next (placeNotices l (saveEnded image k (elapse dt s))) := by
  subst ht
  exact event_of he

/-- Settles O54: a save copies the settings, and each of its ends leaves its own image. -/
theorem savesWriteTheImage : Obligations.SavesWriteTheImage := by
  unfold Obligations.SavesWriteTheImage
  intro h dt s s0 s1 ended marked
  refine ⟨fun ht hp => ?start, fun hn => ⟨event_state (markerWritten_idle hn),
    fun e => event_quiet (saveCompletion_idle e hn)⟩, fun v hv => ?ends⟩
  case start =>
    have hbody : requestBody (.saveStore h) s0 = saveStore h.link s0 := privileged_yes hp _
    refine ⟨fun hno => exec_refuses rfl rfl ht (hbody.trans (if_pos ?_)), fun hok =>
      exec_accepts rfl rfl ht (hbody.trans (if_neg ?_))⟩
    · exact Option.isSome_iff_ne_none.2 hno
    · rw [hok]
      exact Bool.false_ne_true
  case ends =>
    intro written good
    exact ⟨event_state (markerWritten_saving hv),
      exec_saveCompletion (saveCompletion_done hv) (endSave_setMemory _ _), fun why =>
      ⟨exec_saveCompletion (saveCompletion_failed hv 1 why) (failedSave_one _ _),
        exec_saveCompletion (saveCompletion_failed hv 2 why) (failedSave_two _ _),
        exec_saveCompletion (saveCompletion_failed hv 3 why) (failedSave_three _ _),
        _, unreadImage_cases (Config.failedSaveLeavesMarker s1.freeDraws) v.copied s1,
        exec_saveCompletion (saveCompletion_failed hv 4 why) (failedSave_four _ _)⟩⟩

end Sys2Proof.Machine
end

section
/-! PROOFS. The frames sent and the lines (O55). -/

namespace Sys2Proof.Machine

/-! ## Numbers of frames sent -/

theorem RefusalCode.mem_refusalsInOrder (c : RefusalCode) : c ∈ refusalsInOrder := by cases c <;> decide

theorem refusalNumber_eq (c : RefusalCode) : refusalNumber c = refusalsInOrder.idxOf c + 1 := by
  cases c <;> rfl

theorem replyHeader_eq (r : Reply) : replyHeader r =
    [BitVec.ofNat 8 (r.refusal.elim 0 fun c => refusalsInOrder.idxOf c + 1), BitVec.ofNat 8 r.omitted] := by
  unfold replyHeader
  cases r.refusal with
  | none => rfl
  | some c =>
    dsimp only
    rw [refusalNumber_eq]
    rfl

theorem outcomeOctets_eq (free : List Octet) (o : AxisOutcome) : outcomeOctets free o =
    BitVec.ofNat 8 (outcomeRow o).1 :: if (outcomeRow o).2 then free.take 13 else [] := by
  cases o <;> rfl

theorem noticeNumber_eq (n : Notice) : noticeNumber n = noticeRow n := by cases n <;> rfl

theorem modeOctet_eq (m : Mode) : modeOctet m = BitVec.ofNat 8 (modeNumber m) := by cases m <;> rfl

theorem ownerOctet_eq (o : Option Master) : ownerOctet o = BitVec.ofNat 8 (o.elim 0 masterNumber) := by
  cases o with
  | none => rfl
  | some m => cases m <;> rfl

/-! ## The lengths of payloads -/

theorem outcomeOctets_length (free : List Octet) (o : AxisOutcome) : (outcomeOctets free o).length ≤ 14 := by
  unfold outcomeOctets
  rw [List.length_cons]
  split
  · exact (by decide : 0 + 1 ≤ 14)
  · exact Nat.succ_le_succ (List.length_take_le 13 free)

theorem outcomes_length (free : Nat → List Octet) (l : List AxisOutcome) :
    (l.mapIdx fun i o => outcomeOctets (free i) o).flatten.length ≤ 14 * l.length := by
  induction l generalizing free with
  | nil => exact Nat.le_refl 0
  | cons o l ih =>
    have hhead := outcomeOctets_length (free 0) o
    have htail := ih fun i => free (i + 1)
    rw [List.mapIdx_cons, List.flatten_cons, List.length_append, List.length_cons]
    omega

theorem dataOctets_length {free : Nat → List Octet} {d : ReplyData} (hd : ∀ l, d = .outcomes l → l.length ≤ 8) :
    (dataOctets free d).length ≤ 118 := by
  unfold dataOctets
  split
  case h_1 => exact Nat.zero_le _
  case h_2 l =>
    have hl := hd l rfl
    have hlen := outcomes_length free l
    omega
  case h_3 => exact List.length_take_le 118 _

theorem axisReportPayload_length (k : BitVec 32) (c : Timecode) (r : PerAxis AxisReport) :
    (axisReportPayload k c r).length = 72 := rfl

theorem noticeOctets_length (free : Nat → List Octet) (n : Notice) : (noticeOctets free n).length ≤ 120 := by
  unfold noticeOctets
  split
  case h_1 k c r => exact Nat.le_trans (Nat.le_of_eq (axisReportPayload_length k c r)) (by decide)
  case h_2 => exact Nat.zero_le _
  case h_3 => exact List.length_take_le 120 _

/-! ## The lines -/

theorem actionSet_eq (s : State) (src : FaultSource) : actionSet s src =
    if src = .estop ∨ src = .stopOverrun
    then { notice := true, hold := false, delay := false, safeStop := false, faultLine := true }
    else s.settings.actions[src.id] := by
  cases src <;> rfl

theorem faultLine_iff {s : State} : faultLine s = true ↔
    ∃ src, (sourceState s src).flag = true ∧ (actionSet s src).faultLine = true := by
  unfold faultLine
  rw [List.any_eq_true]
  simp [FaultSource.mem_all, flagSet]

theorem Move.active_iff {m : Move} : m.active = true ↔ m.state ≠ .queued := by
  unfold Move.active
  cases m.state <;> decide

theorem has_tally {s : State} {a : Axis} : AxisSet.has (tally s) a = true ↔
    s.startup.mode = .standalone ∧ AxisSet.has s.settings.fitted a = true ∧
      ∃ m ∈ s.queue, m.state ≠ .queued ∧ AxisSet.has m.axes a = true := by
  unfold tally tallyLit
  simp only [AxisSet.has_ofTest, Bool.and_eq_true, List.any_eq_true, beq_iff_eq, Move.active_iff, and_assoc]

/-! ## The frames -/

theorem axisReport_payload (free : Nat → List Octet) (k : BitVec 32) (c : Timecode) (r : PerAxis AxisReport) :
    let time : List Octet := [c.hh, c.mm, c.ss, c.ff].map fun b => BitVec.ofNat 8 (16 * b.tens + b.ones)
    let position : Int → List Octet := fun v => let w := BitVec.ofInt 24 v
      [w.extractLsb' 16 8, w.extractLsb' 8 8, w.extractLsb' 0 8]
    (LinkFrame.notice (.axisReport k c r)).payload free =
      [k.extractLsb' 24 8, k.extractLsb' 16 8, k.extractLsb' 8 8, k.extractLsb' 0 8] ++ time ++
        Axis.all.flatMap fun a => position (r.get a).d1 ++ position (r.get a).feedback ++
          [BitVec.ofNat 8 (modeNumber (r.get a).mode), BitVec.ofNat 8 ((r.get a).owner.elim 0 masterNumber)] := by
  simp only [← modeOctet_eq, ← ownerOctet_eq]
  rfl

/-- Settles O55: the octets of each frame, their lengths, and the lines. -/
theorem sentFramesAndLinesFollowTheState : Obligations.SentFramesAndLinesFollowTheState := by
  refine ⟨RefusalCode.mem_refusalsInOrder, fun free tag r => ?reply, fun free n => ?notice, actionSet_eq,
    fun _ => faultLine_iff, fun _ _ => has_tally⟩
  case reply =>
    intro f head
    have hpayload : f.payload free = head ++ dataOctets free r.data := congrArg (· ++ _) (replyHeader_eq r)
    refine ⟨rfl, rfl, fun hd => ?_, fun l hd => ?_, fun hd => ?_, _, hpayload⟩
    · rw [hpayload, hd]
      exact List.append_nil _
    · rw [hpayload, hd]
      refine congrArg (head ++ ·) (congrArg List.flatten (congrArg (List.mapIdx · l) ?_))
      exact funext fun i => funext fun o => outcomeOctets_eq (free i) o
    · rw [hpayload, List.length_append]
      exact Nat.add_le_add (Nat.le_refl 2) (dataOctets_length hd)
  case notice =>
    refine ⟨congrArg (BitVec.ofNat 8) (noticeNumber_eq n), rfl, noticeOctets_length free n, fun hn => ?_,
      fun k c r hn => ?_⟩
    · subst hn
      rfl
    · subst hn
      exact ⟨axisReportPayload_length k c r, axisReport_payload free k c r⟩

end Sys2Proof.Machine
end

section
/-! PROOFS. The state after reset (O56). -/

namespace Sys2Proof.Machine

theorem isEnabled_reset (a : Axis) : isEnabled State.reset a = false := by cases a <;> rfl

theorem authorityLaw_reset : authorityLaw State.reset := fun a => by
  have hrecord : State.reset.authority.get a = Authority.reset := by cases a <;> rfl
  rw [hrecord]
  exact ⟨Nat.zero_le 2, List.nodup_nil, nofun, fun _ => ⟨rfl, rfl⟩, nofun⟩

/-- Every law holds after reset: nothing is queued, cached, stored or enabled, and no flag is set. -/
theorem laws_reset : laws State.reset :=
  ⟨linkLaw_takeReset .powerOn State.reset, ⟨Nat.zero_le 8, List.nodup_nil⟩, ⟨rfl, rfl, rfl, nofun, nofun⟩,
    (rfl : none.isSome = anyFlag State.reset),
    ⟨fun a ha => Bool.noConfusion ((isEnabled_reset a).symm.trans ha), nofun⟩,
    ⟨fun _ => ⟨rfl, rfl, isEnabled_reset⟩, iff_of_false nofun nofun⟩,
    authorityLaw_reset, queueLaw_takeReset .powerOn State.reset, ownershipLaw_takeReset .powerOn State.reset,
    timecodeLaw_takeReset .powerOn State.reset, ⟨nofun, fun _ => rfl⟩, nofun⟩

/-! ## The built-in defaults -/

theorem defaultSlots_iff (a : Axis) (n : Fin 16) :
    (defaultSlots[n] = .demand a ↔ n.val = 2 * a.number) ∧ (defaultSlots[n] = .feedback a ↔ n.val = 2 * a.number + 1) := by
  cases a <;> revert n <;> decide

theorem PerMaster.get_fill {α : Type} (v : α) (m : Master) : (PerMaster.fill v).get m = v := by cases m <;> rfl

theorem PerAxis.get_fill {α : Type} (v : α) (a : Axis) : (PerAxis.fill v).get a = v := by cases a <;> rfl

theorem builtIn_zone (n : Fin 8) : Settings.builtIn.zones[n] = ZoneSetting.builtIn := by revert n; decide

theorem zoneBuiltIn_axes (a : Axis) : AxisSet.has ZoneSetting.builtIn.axes a = true ↔ a = .track ∨ a = .swing := by
  cases a <;> decide

theorem builtInDefaults_hold : builtInDefaults Settings.builtIn := by
  refine ⟨rfl, rfl, rfl, rfl, rfl, fun a => ⟨AxisSet.has_full a, PerAxis.get_fill _ a, fun n => (defaultSlots_iff a n).1,
    fun n => (defaultSlots_iff a n).2, fun m => ?profile⟩, fun n => ?zone, fun m => ⟨PerMaster.get_fill _ m, ?view⟩,
    fun src hestop hoverrun => ?actions⟩
  case profile =>
    show ((PerMaster.fill (PerAxis.fill Profile.builtIn)).get m).get a = _
    rw [PerMaster.get_fill, PerAxis.get_fill]
    rfl
  case zone =>
    rw [builtIn_zone]
    exact ⟨rfl, zoneBuiltIn_axes, PerAxis.get_fill _⟩
  case view => cases m <;> rfl
  case actions =>
    cases src
    case estop => exact absurd rfl hestop
    case stopOverrun => exact absurd rfl hoverrun
    all_goals rfl

/-! ## Field by field -/

theorem reset_axis (a : Axis) : State.reset.authority.get a = { owner := none, yielding := false, waiting := [] } ∧
    State.reset.demand.get a = { d1 := 0, d2 := 0 } ∧ State.reset.clamped.get a = false ∧
    State.reset.blend.get a =
      { mode := .hold, base := 0, trim := 0, weight := 0, step := 1, live := 0, preset := 0 } ∧
    State.reset.bus.drives.get a =
      { enable := .released, feedback := 0, state := .notReady, echo := .none, silent := 0
        following := 0, sent := none, sentBefore := none } :=
  ⟨PerAxis.get_fill _ a, PerAxis.get_fill _ a, PerAxis.get_fill _ a, PerAxis.get_fill _ a, PerAxis.get_fill _ a⟩

theorem reset_couplings (n : Fin 4) : State.reset.couplings[n] =
    { enabled := false, source := .track, target := .swing, gain := 0, reference := 0 } := by
  revert n
  decide

theorem reset_armed (n : Fin 8) : State.reset.armed[n] = false := by
  revert n
  decide

theorem reset_source (src : FaultSource) : sourceState State.reset src = { flag := false, axes := 0#8 } := by
  cases src <;> rfl

/-- Settles O56: the laws hold after reset, and every field stands where its chapter puts it. -/
theorem resetStateAndItsLaws : Obligations.ResetStateAndItsLaws :=
  ⟨laws_reset, fun m => ⟨PerMaster.get_fill _ m, PerMaster.get_fill _ m⟩, reset_axis, rfl, rfl, rfl, rfl, rfl, rfl,
    builtInDefaults_hold, reset_couplings, reset_armed, rfl, reset_source, rfl, rfl, rfl, rfl, rfl, rfl, fun _ => rfl⟩

end Sys2Proof.Machine
end

section
/-! PROOFS. Frames: their escapes, their check, and the frame that a line's octets hold (O9). -/

namespace Sys2Proof.Machine

/-! ## Escapes -/

theorem unescape_plain {o : Octet} (h5 : o ≠ 165#8) (h6 : o ≠ 166#8) (l : List Octet) :
    unescape (o :: l) = (unescape l).map (o :: ·) := by
  rw [unescape.eq_def]
  exact (if_neg h6).trans (if_neg h5)

theorem unescape_181 (l : List Octet) : unescape (166#8 :: 181#8 :: l) = (unescape l).map (165#8 :: ·) := by
  rw [unescape, if_pos rfl]
  rfl

theorem unescape_182 (l : List Octet) : unescape (166#8 :: 182#8 :: l) = (unescape l).map (166#8 :: ·) := by
  rw [unescape, if_pos rfl]
  rfl

theorem unescape_wrong {o : Octet} (h1 : o ≠ 181#8) (h2 : o ≠ 182#8) (l : List Octet) :
    unescape (166#8 :: o :: l) = none := by
  rw [unescape, if_pos rfl]
  exact if_neg fun h => h.elim h1 h2

theorem unescape_escapeOctet (o : Octet) (l : List Octet) :
    unescape (escapeOctet o ++ l) = (unescape l).map (o :: ·) := by
  unfold escapeOctet
  split
  case isTrue h =>
    rcases h with rfl | rfl
    · exact unescape_181 l
    · exact unescape_182 l
  case isFalse h =>
    rw [not_or] at h
    exact unescape_plain h.1 h.2 l

theorem unescape_escape (l : List Octet) : unescape (escape l) = some l := by
  induction l with
  | nil => rfl
  | cons o l ih =>
    have hcons : escape (o :: l) = escapeOctet o ++ escape l := List.flatMap_cons
    rw [hcons, unescape_escapeOctet, ih]
    rfl

theorem escapeOctet_betweenFlags (o : Octet) : betweenFlags (escapeOctet o) = true := by
  unfold escapeOctet
  split
  case isTrue h => rcases h with rfl | rfl <;> rfl
  case isFalse h =>
    rw [not_or] at h
    simp [betweenFlags, h.1]

theorem escape_betweenFlags (l : List Octet) : betweenFlags (escape l) = true := by
  unfold escape betweenFlags
  rw [List.all_flatMap]
  exact List.all_eq_true.2 fun o _ => escapeOctet_betweenFlags o

/-! ## The check -/

theorem checkOctets_length (l : List Octet) : (checkOctets l).length = 2 := rfl

/-- A frame is read from its body and the check of it, and from nothing else. -/
theorem readFrame_eq_some {l : List Octet} {f : RawFrame} : readFrame l = some f ↔
    l = frameBody f ++ checkOctets (frameBody f) ∧ f.payload.length ≤ 120 := by
  constructor
  · intro h
    unfold readFrame at h
    split at h
    case isFalse => exact nomatch h
    case isTrue hc =>
      rw [Bool.and_eq_true, numberWithin_iff, beq_iff_eq] at hc
      obtain ⟨⟨hmin, hmax⟩, hcheck⟩ := hc
      split at h
      case h_2 => exact nomatch h
      case h_1 kind tag payload hbody =>
        injection h with h
        subst h
        have hlen := congrArg List.length hbody
        rw [List.length_take, List.length_cons, List.length_cons] at hlen
        refine ⟨?_, by dsimp only; omega⟩
        rw [hbody] at hcheck
        calc l = l.take (l.length - 2) ++ l.drop (l.length - 2) := (List.take_append_drop _ l).symm
          _ = _ := by rw [hbody, hcheck]; rfl
  · rintro ⟨rfl, hlen⟩
    have hbody : (frameBody f ++ checkOctets (frameBody f)).length - 2 = (frameBody f).length := by
      rw [List.length_append, checkOctets_length]
      omega
    unfold readFrame
    rw [hbody, List.take_left, List.drop_left, if_pos]
    · rfl
    · rw [Bool.and_eq_true, numberWithin_iff, beq_iff_eq]
      refine ⟨?_, rfl⟩
      rw [List.length_append, checkOctets_length]
      unfold frameBody
      rw [List.length_cons, List.length_cons]
      omega

theorem openFrame_eq_some {l : List Octet} {f : RawFrame} : openFrame l = some f ↔
    unescape l = some (frameBody f ++ checkOctets (frameBody f)) ∧ f.payload.length ≤ 120 := by
  unfold openFrame
  rw [Option.bind_eq_some_iff]
  exact ⟨fun ⟨b, hb, hr⟩ => by
      obtain ⟨rfl, hlen⟩ := readFrame_eq_some.1 hr
      exact ⟨hb, hlen⟩,
    fun ⟨hb, hlen⟩ => ⟨_, hb, readFrame_eq_some.2 ⟨rfl, hlen⟩⟩⟩

theorem openFrame_sealFrame {f : RawFrame} (hlen : f.payload.length ≤ 120) : openFrame (sealFrame f) = some f :=
  openFrame_eq_some.2 ⟨unescape_escape _, hlen⟩

/-- Settles O9: a sealed frame is its body and its check escaped, holds no flag, and opens to itself. -/
theorem sealedFramesOpenToThemselves : Obligations.SealedFramesOpenToThemselves := by
  unfold Obligations.SealedFramesOpenToThemselves
  intro f body check
  exact ⟨rfl, rfl, fun hlen => ⟨openFrame_sealFrame hlen, escape_betweenFlags _⟩⟩

end Sys2Proof.Machine
end

section
/-! PROOFS. The requests that kinds and payload lengths bring (O8). -/

namespace Sys2Proof.Machine

/-! ## What a request that is read says of its octets -/

/-- What is known of a request read from a kind and a payload. -/
structure ReadAs (h : Header) (kind : Nat) (p : List Nat) (i : Instr) : Prop where
  possible : lengthPossible kind p.length
  kind_eq : kindNumber i = kind
  header : requestHeader i = some h
  least : 2 ≤ kind
  most : kind ≤ 59

theorem appendedIn_short {f n : Nat} {rest : List Nat} (h3 : rest.length ≠ 3) (h4 : rest.length < 4) :
    appendedIn (f :: n :: rest) = none := by
  unfold appendedIn
  split
  case h_1 heq =>
    have hlen := congrArg List.length heq
    simp only [List.length_cons, List.length_nil] at hlen
    omega
  case h_2 heq =>
    injection heq with _ heq
    injection heq with _ heq
    subst heq
    split
    case h_1 hdrop =>
      have hlen := congrArg List.length hdrop
      simp only [List.length_drop, List.length_cons, List.length_nil] at hlen
      omega
    case h_2 => rfl
  case h_3 => rfl

theorem appendedIn_long (f n d d' p g : Nat) (ts : List Nat) : appendedIn (f :: n :: (ts ++ [d, d', p, g])) =
    if ts.length % 4 ≠ 0 then none
    else if f = 0 ∧ ts.length = 4 * n then some (.explicit (pairsIn ts) (two d d') p g)
    else some .unreadable := by
  have hlen : (ts ++ [d, d', p, g]).length = ts.length + 4 := List.length_append
  unfold appendedIn
  split
  case h_1 heq =>
    have hfive := congrArg List.length heq
    simp only [List.length_cons, List.length_nil, hlen] at hfive
    omega
  case h_2 hnot heq =>
    injection heq with hf heq
    injection heq with hn heq
    subst heq hf hn
    rw [hlen, Nat.add_sub_cancel, List.drop_left, Nat.add_mod_right]
    dsimp only
    by_cases hfour : ts.length % 4 ≠ 0
    · rw [if_pos hfour, if_pos hfour]
    · rw [if_neg hfour, if_neg hfour]
      by_cases hform : f = 0 ∧ ts.length = 4 * n
      · rw [if_pos hform, if_pos ⟨hform.1, by omega⟩, ← hform.2, List.take_left]
      · rw [if_neg hform, if_neg fun h => hform ⟨h.1, by omega⟩]
  case h_3 hnot => exact absurd rfl (hnot _ _ _)

/-- A list of at least four items and its last four. -/
theorem exists_lastFour {α : Type} {l : List α} (h : 4 ≤ l.length) : ∃ ts a b c d, l = ts ++ [a, b, c, d] := by
  have hlast : (l.drop (l.length - 4)).length = 4 := by
    rw [List.length_drop]
    omega
  match hd : l.drop (l.length - 4), hlast with
  | [a, b, c, d], _ => exact ⟨l.take (l.length - 4), a, b, c, d, by rw [← hd, List.take_append_drop]⟩

theorem appendedIn_isSome {l : List Nat} :
    (appendedIn l).isSome = true ↔ l.length = 5 ∨ 6 ≤ l.length ∧ l.length % 4 = 2 := by
  match l with
  | [] => exact iff_of_false nofun (by decide)
  | [_] => exact iff_of_false nofun (by rw [List.length_singleton]; decide)
  | f :: n :: rest =>
    rw [List.length_cons, List.length_cons]
    by_cases h3 : rest.length = 3
    · obtain ⟨d, p, g, rfl⟩ := exists_three h3
      exact iff_of_true rfl (.inl rfl)
    · by_cases h4 : rest.length < 4
      · rw [appendedIn_short h3 h4]
        exact iff_of_false nofun (by omega)
      · obtain ⟨ts, d, d', p, g, rfl⟩ := exists_lastFour (Nat.le_of_not_lt h4)
        have hlen : (ts ++ [d, d', p, g]).length = ts.length + 4 := List.length_append
        rw [appendedIn_long, hlen]
        by_cases hfour : ts.length % 4 ≠ 0
        · rw [if_pos hfour]
          exact iff_of_false nofun (by omega)
        · rw [if_neg hfour]
          refine iff_of_true ?_ (by omega)
          split <;> rfl

theorem storeRequest_isSome {h : Header} {p : List Nat} : (storeRequest h p).isSome = true ↔ 17 ≤ p.length := by
  unfold storeRequest
  split
  case h_1 bank pos x g n rest =>
    simp only [List.length_cons]
    split
    · exact iff_of_false nofun (by omega)
    · exact iff_of_true rfl (by omega)
  case h_2 hnot =>
    refine iff_of_false nofun fun hlen => ?_
    match p, hlen, hnot with
    | bank :: pos :: x :: g :: n :: rest, _, hnot => exact hnot _ _ _ _ _ _ rfl

theorem storeRequest_some {h : Header} {p : List Nat} {i : Instr} (e : storeRequest h p = some i) :
    ReadAs h 12 p i := by
  have hlen : 17 ≤ p.length := storeRequest_isSome.1 (by rw [e]; rfl)
  unfold storeRequest at e
  split at e
  case h_2 => exact nomatch e
  case h_1 =>
    split at e
    case isTrue => exact nomatch e
    case isFalse =>
      cases e
      exact ⟨hlen, rfl, rfl, by decide, by decide⟩

theorem lengthPossible_table {kind n : Nat} (h12 : kind ≠ 12) (h14 : kind ≠ 14) (h43 : kind ≠ 43) (h44 : kind ≠ 44) :
    lengthPossible kind n ↔ 1 ≤ kind ∧ payloadLengths[kind - 1]? = some n := by
  unfold lengthPossible
  rw [if_neg h12, if_neg h14, if_neg h43, if_neg h44]

theorem readAs_table {h : Header} {kind : Nat} {p : List Nat} {i : Instr}
    (hk : kind ≠ 12 ∧ kind ≠ 14 ∧ kind ≠ 43 ∧ kind ≠ 44 ∧ 2 ≤ kind ∧ kind ≤ 59)
    (hn : payloadLengths[kind - 1]? = some p.length) (hi : kindNumber i = kind) (hh : requestHeader i = some h) :
    ReadAs h kind p i := by
  obtain ⟨h12, h14, h43, h44, hleast, hmost⟩ := hk
  exact ⟨(lengthPossible_table h12 h14 h43 h44).2 ⟨by omega, hn⟩, hi, hh, hleast, hmost⟩

theorem earlyRequest_some {h : Header} {kind : Nat} {p : List Nat} {i : Instr} (e : earlyRequest h kind p = some i) :
    ReadAs h kind p i := by
  unfold earlyRequest at e
  split at e
  case h_11 => exact storeRequest_some e
  case h_13 b q rest =>
    obtain ⟨k, hk, rfl⟩ := Option.map_eq_some_iff.1 e
    have hlen := appendedIn_isSome.1 (by rw [hk]; rfl)
    refine ⟨?_, rfl, rfl, by decide, by decide⟩
    show _ = 7 ∨ (8 ≤ _ ∧ _ % 4 = 0)
    rw [List.length_cons, List.length_cons]
    omega
  case h_20 => exact nomatch e
  all_goals
    cases e
    exact readAs_table (by decide) rfl rfl rfl

theorem middleRequest_some {h : Header} {kind : Nat} {p : List Nat} {i : Instr}
    (e : middleRequest h kind p = some i) : ReadAs h kind p i := by
  unfold middleRequest at e
  split at e
  case h_21 => exact nomatch e
  all_goals
    cases e
    exact readAs_table (by decide) rfl rfl rfl

theorem lateRequest_some {h : Header} {kind : Nat} {p : List Nat} {i : Instr} (e : lateRequest h kind p = some i) :
    ReadAs h kind p i := by
  unfold lateRequest at e
  split at e
  case h_3 z e' x rest =>
    split at e
    case isFalse => exact nomatch e
    case isTrue hlen =>
      cases e
      refine ⟨?_, rfl, rfl, by decide, by decide⟩
      show 3 ≤ _ ∧ _ ≤ 51 ∧ _ % 6 = 3
      rw [List.length_cons, List.length_cons, List.length_cons]
      omega
  case h_4 d b k l rest =>
    split at e
    case isFalse => exact nomatch e
    case isTrue hlen =>
      cases e
      refine ⟨?_, rfl, rfl, by decide, by decide⟩
      show 4 ≤ _ ∧ _ ≤ 6
      rw [List.length_cons, List.length_cons, List.length_cons, List.length_cons]
      omega
  case h_12 r t t' slots =>
    split at e
    case isFalse => exact nomatch e
    case isTrue hlen =>
      cases e
      refine readAs_table (by decide) ?_ rfl rfl
      rw [List.length_cons, List.length_cons, List.length_cons, hlen]
      rfl
  case h_20 => exact nomatch e
  all_goals
    cases e
    exact readAs_table (by decide) rfl rfl rfl

theorem requestOf_some {h : Header} {kind : Nat} {p : List Nat} {i : Instr} (e : requestOf h kind p = some i) :
    ReadAs h kind p i := by
  unfold requestOf at e
  split at e
  · exact earlyRequest_some e
  · split at e
    · exact middleRequest_some e
    · exact lateRequest_some e

/-! ## Payloads of a possible length -/

theorem exists_ofFn {l : List Nat} {n : Nat} (h : l.length = n) : ∃ f : Fin n → Nat, l = List.ofFn f := by
  subst h
  exact ⟨fun i => l[i.val], List.ofFn_getElem.symm⟩

/-- A payload of the table's length is read. -/
theorem requestOf_table (h : Header) {kind n : Nat} (h12 : kind ≠ 12) (h14 : kind ≠ 14) (h43 : kind ≠ 43)
    (h44 : kind ≠ 44) (hleast : 2 ≤ kind) (hn : payloadLengths[kind - 1]? = some n) (f : Fin n → Nat) :
    (requestOf h kind (List.ofFn f)).isSome = true := by
  have hmost : kind - 1 < 59 := (List.getElem?_eq_some_iff.1 hn).1
  match kind, hn with
  | 2, hn | 3, hn | 4, hn | 5, hn | 6, hn | 7, hn | 8, hn | 9, hn | 10, hn | 11, hn | 13, hn | 15, hn | 16, hn
  | 17, hn | 18, hn | 19, hn | 20, hn | 21, hn | 22, hn | 23, hn | 24, hn | 25, hn | 26, hn | 27, hn | 28, hn
  | 29, hn | 30, hn | 31, hn | 32, hn | 33, hn | 34, hn | 35, hn | 36, hn | 37, hn | 38, hn | 39, hn | 40, hn
  | 41, hn | 42, hn | 45, hn | 46, hn | 47, hn | 48, hn | 49, hn | 50, hn | 51, hn | 52, hn | 53, hn | 54, hn
  | 55, hn | 56, hn | 57, hn | 58, hn | 59, hn =>
    cases hn
    rfl

theorem requestOf_isSome (h : Header) {kind : Nat} {p : List Nat} (hleast : 2 ≤ kind)
    (hp : lengthPossible kind p.length) : (requestOf h kind p).isSome = true := by
  by_cases h12 : kind = 12
  · subst h12
    exact storeRequest_isSome.2 hp
  by_cases h14 : kind = 14
  · subst h14
    have hlen : p.length = 7 ∨ (8 ≤ p.length ∧ p.length % 4 = 0) := hp
    match p, hlen with
    | b :: q :: rest, hlen =>
      rw [List.length_cons, List.length_cons] at hlen
      have hsome : (appendedIn rest).isSome = true := appendedIn_isSome.2 (by omega)
      show ((appendedIn rest).map _).isSome = true
      rwa [Option.isSome_map]
  by_cases h43 : kind = 43
  · subst h43
    have hlen : 3 ≤ p.length ∧ p.length ≤ 51 ∧ p.length % 6 = 3 := hp
    match p, hlen with
    | z :: e :: x :: rest, hlen =>
      rw [List.length_cons, List.length_cons, List.length_cons] at hlen
      show (if rest.length % 6 = 0 ∧ rest.length ≤ 48 then _ else none).isSome = true
      rw [if_pos (by omega)]
      rfl
  by_cases h44 : kind = 44
  · subst h44
    have hlen : 4 ≤ p.length ∧ p.length ≤ 6 := hp
    match p, hlen with
    | d :: b :: k :: l :: rest, hlen =>
      rw [List.length_cons, List.length_cons, List.length_cons, List.length_cons] at hlen
      show (if rest.length ≤ 2 then _ else none).isSome = true
      rw [if_pos (by omega)]
      rfl
  obtain ⟨_, hn⟩ := (lengthPossible_table h12 h14 h43 h44).1 hp
  obtain ⟨f, hf⟩ := exists_ofFn (l := p) rfl
  rw [hf]
  exact requestOf_table h h12 h14 h43 h44 hleast hn f

end Sys2Proof.Machine
end

section
/-! PROOFS. The frames that are not bad, and the octets of numbers (O8). -/

namespace Sys2Proof.Machine

/-! ## What a good frame brings -/

theorem lengthPossible_one {n : Nat} : lengthPossible 1 n ↔ n = 16 := by
  rw [lengthPossible_table (by decide) (by decide) (by decide) (by decide)]
  exact ⟨fun ⟨_, h⟩ => (Option.some.inj h).symm, fun h => ⟨Nat.le_refl 1, h ▸ rfl⟩⟩

theorem deflectionsIn_isSome {p : List Nat} : (deflectionsIn p).isSome = true ↔ p.length = 16 := by
  refine ⟨fun h => ?_, fun h => ?_⟩
  · unfold deflectionsIn at h
    split at h
    · rfl
    · exact nomatch h
  · obtain ⟨f, rfl⟩ := exists_ofFn h
    rfl

theorem inputOf_joy {m : Master} {f : RawFrame} (hk : f.kind = 1#8) :
    inputOf m f = (deflectionsIn (f.payload.map BitVec.toNat)).map .joy := if_pos hk

theorem inputOf_request {m : Master} {f : RawFrame} (hk : f.kind ≠ 1#8) :
    inputOf m f = (requestOf { elapsed := 0, link := m, tag := f.tag } f.kind.toNat
      (f.payload.map BitVec.toNat)).map .request := if_neg hk

theorem inputOf_isSome {m : Master} {f : RawFrame} :
    (inputOf m f).isSome = true ↔ lengthPossible f.kind.toNat f.payload.length := by
  by_cases hk : f.kind = 1#8
  · rw [inputOf_joy hk, Option.isSome_map, deflectionsIn_isSome, List.length_map, hk]
    exact lengthPossible_one.symm
  · rw [inputOf_request hk, Option.isSome_map]
    constructor
    · intro h
      obtain ⟨i, hi⟩ := Option.isSome_iff_exists.1 h
      have hread := (requestOf_some hi).possible
      rwa [List.length_map] at hread
    · intro h
      refine requestOf_isSome _ ?_ (by rwa [List.length_map])
      have hpos : 1 ≤ f.kind.toNat := by
        unfold lengthPossible at h
        split at h
        · omega
        · split at h
          · omega
          · split at h
            · omega
            · split at h
              · omega
              · exact h.1
      have hone : f.kind.toNat ≠ 1 := fun he => hk (BitVec.eq_of_toNat_eq he)
      omega

theorem frameInput_eq_some {m : Master} {l : List Octet} {x : LinkInput} : frameInput m l = some x ↔
    ∃ kind tag payload, unescape l = some (kind :: tag :: payload ++ checkOctets (kind :: tag :: payload)) ∧
      payload.length ≤ 120 ∧ inputOf m { kind := kind, tag := tag, payload := payload } = some x := by
  unfold frameInput
  rw [Option.bind_eq_some_iff]
  constructor
  · rintro ⟨f, hopen, hx⟩
    obtain ⟨hl, hlen⟩ := openFrame_eq_some.1 hopen
    exact ⟨f.kind, f.tag, f.payload, hl, hlen, hx⟩
  · rintro ⟨kind, tag, payload, hl, hlen, hx⟩
    exact ⟨{ kind := kind, tag := tag, payload := payload }, openFrame_eq_some.2 ⟨hl, hlen⟩, hx⟩

theorem frameInput_sealFrame {m : Master} {f : RawFrame} (hlen : f.payload.length ≤ 120) :
    frameInput m (sealFrame f) = inputOf m f := by
  unfold frameInput
  rw [openFrame_sealFrame hlen]
  rfl

/-- What a frame brings: a JOY of 16 octets, or a request of its kind with the link and the tag. -/
theorem inputOf_brings {m : Master} {kind tag : Octet} {payload : List Octet} {x : LinkInput}
    (hx : inputOf m { kind := kind, tag := tag, payload := payload } = some x) :
    (kind = 1#8 ∧ payload.length = 16 ∧ ∃ d, x = .joy d) ∨
      (2 ≤ kind.toNat ∧ kind.toNat ≤ 59 ∧ ∃ i, x = .request i ∧ kindNumber i = kind.toNat ∧
        requestHeader i = some { elapsed := 0, link := m, tag := tag }) := by
  by_cases hk : kind = 1#8
  · have hlen := inputOf_isSome.1 (Option.isSome_of_eq_some hx)
    rw [inputOf_joy hk] at hx
    obtain ⟨d, _, rfl⟩ := Option.map_eq_some_iff.1 hx
    subst hk
    exact .inl ⟨rfl, lengthPossible_one.1 hlen, d, rfl⟩
  · rw [inputOf_request hk] at hx
    obtain ⟨i, hi, rfl⟩ := Option.map_eq_some_iff.1 hx
    have hread := requestOf_some hi
    exact .inr ⟨hread.least, hread.most, i, rfl, hread.kind_eq, hread.header⟩

theorem goodFrames_hold : goodFramesAreThose := by
  refine fun m l => ⟨⟨fun h => ?_, fun ⟨kind, tag, payload, hl, hlen, hp⟩ => ?_⟩, fun x hx => ?_⟩
  · obtain ⟨x, hx⟩ := Option.isSome_iff_exists.1 h
    obtain ⟨kind, tag, payload, hl, hlen, hi⟩ := frameInput_eq_some.1 hx
    exact ⟨kind, tag, payload, hl, hlen, inputOf_isSome.1 (Option.isSome_of_eq_some hi)⟩
  · obtain ⟨x, hx⟩ := Option.isSome_iff_exists.1
      (inputOf_isSome.2 hp : (inputOf m { kind := kind, tag := tag, payload := payload }).isSome = true)
    exact Option.isSome_of_eq_some (frameInput_eq_some.2 ⟨kind, tag, payload, hl, hlen, hx⟩)
  · obtain ⟨kind, tag, payload, hl, hlen, hi⟩ := frameInput_eq_some.1 hx
    exact ⟨kind, tag, payload, hl, hlen, inputOf_brings hi⟩

theorem escapesAreRemoved_holds : escapesAreRemoved :=
  ⟨rfl, rfl, fun _ l => ⟨fun h5 h6 => unescape_plain h5 h6 l, unescape_181 l, unescape_182 l,
    fun h1 h2 => unescape_wrong h1 h2 l⟩⟩

/-! ## The octets of a number -/

theorem numberOctets_one (v : Int) : numberOctets 1 v = [BitVec.ofInt 8 v] := rfl

theorem numberOctets_two (v : Int) : numberOctets 2 v = [BitVec.ofInt 8 (v / 256), BitVec.ofInt 8 v] := rfl

theorem numberOctets_three (v : Int) :
    numberOctets 3 v = [BitVec.ofInt 8 (v / 256 / 256), BitVec.ofInt 8 (v / 256), BitVec.ofInt 8 v] := rfl

theorem numberOctets_four (v : Int) : numberOctets 4 v =
    [BitVec.ofInt 8 (v / 256 / 256 / 256), BitVec.ofInt 8 (v / 256 / 256), BitVec.ofInt 8 (v / 256),
      BitVec.ofInt 8 v] := rfl

theorem octet_toNat (v : Int) : (BitVec.ofInt 8 v).toNat = (v % 256).toNat := BitVec.toNat_ofInt v

/-- A signed number is its residue, below half its range, or that less the range. -/
theorem signedTwo_cases {a b : Nat} (ha : a < 256) (hb : b < 256) :
    (signedTwo a b = 256 * a + b ∧ a < 128) ∨ (signedTwo a b = 256 * a + b - 65536 ∧ 128 ≤ a) := by
  unfold signedTwo two
  rw [BitVec.toInt_eq_toNat_bmod, BitVec.toNat_ofNat, Int.bmod_def]
  split <;> omega

theorem signedThree_cases {a b c : Nat} (ha : a < 256) (hb : b < 256) (hc : c < 256) :
    (signedThree a b c = 65536 * a + 256 * b + c ∧ a < 128) ∨
      (signedThree a b c = 65536 * a + 256 * b + c - 16777216 ∧ 128 ≤ a) := by
  unfold signedThree two
  rw [BitVec.toInt_eq_toNat_bmod, BitVec.toNat_ofNat, Int.bmod_def]
  split <;> omega

theorem octet_lt (v : Int) : (v % 256).toNat < 256 := by omega

theorem signedTwo_octets {v : Int} (hlo : -32768 ≤ v) (hhi : v ≤ 32767) :
    signedTwo (BitVec.ofInt 8 (v / 256)).toNat (BitVec.ofInt 8 v).toNat = v := by
  rw [octet_toNat, octet_toNat]
  have hcases := signedTwo_cases (octet_lt (v / 256)) (octet_lt v)
  omega

theorem signedThree_octets {v : Int} (hlo : -8388608 ≤ v) (hhi : v ≤ 8388607) :
    signedThree (BitVec.ofInt 8 (v / 256 / 256)).toNat (BitVec.ofInt 8 (v / 256)).toNat
      (BitVec.ofInt 8 v).toNat = v := by
  rw [octet_toNat, octet_toNat, octet_toNat]
  have hcases := signedThree_cases (octet_lt (v / 256 / 256)) (octet_lt (v / 256)) (octet_lt v)
  omega

theorem octet_eq {v : Int} {o : Octet} (h : v % 256 = o.toNat) : BitVec.ofInt 8 v = o :=
  BitVec.eq_of_toNat_eq (by rw [octet_toNat]; omega)

theorem octets_signedTwo (a b : Octet) : numberOctets 2 (signedTwo a.toNat b.toNat) = [a, b] := by
  have ha := a.isLt
  have hb := b.isLt
  have hcases := signedTwo_cases ha hb
  rw [numberOctets_two, octet_eq (o := a) (by omega), octet_eq (o := b) (by omega)]

theorem octets_signedThree (a b c : Octet) : numberOctets 3 (signedThree a.toNat b.toNat c.toNat) = [a, b, c] := by
  have ha := a.isLt
  have hb := b.isLt
  have hc := c.isLt
  have hcases := signedThree_cases ha hb hc
  rw [numberOctets_three, octet_eq (o := a) (by omega), octet_eq (o := b) (by omega), octet_eq (o := c) (by omega)]

theorem octets_two (a b : Octet) : numberOctets 2 (two a.toNat b.toNat) = [a, b] := by
  have ha := a.isLt
  have hb := b.isLt
  unfold two
  rw [numberOctets_two, octet_eq (o := a) (by omega), octet_eq (o := b) (by omega)]

theorem octets_one (a : Octet) : numberOctets 1 a.toNat = [a] := by
  have ha := a.isLt
  rw [numberOctets_one, octet_eq (o := a) (by omega)]

/-! ## JOY -/

theorem signedTwo_range (a b : Nat) : -32768 ≤ signedTwo a b ∧ signedTwo a b ≤ 32767 := by
  have hlo := BitVec.le_toInt (BitVec.ofNat 16 (two a b))
  have hhi := BitVec.toInt_le (x := BitVec.ofNat 16 (two a b))
  unfold signedTwo
  omega

theorem joyFrames_hold : joyFramesCarryTheDeflections := by
  refine ⟨fun m tag d hd => ?written, fun m l d h => ?read⟩
  case written =>
    have hlen : ([d.track, d.swing, d.lift, d.tele, d.pan, d.tilt, d.roll, d.zoom].flatMap (numberOctets 2)).length
        ≤ 120 := (by decide : 16 ≤ 120)
    have hback : ∀ a, signedTwo (BitVec.ofInt 8 (d.get a / 256)).toNat (BitVec.ofInt 8 (d.get a)).toNat = d.get a :=
      fun a => signedTwo_octets (hd a).1 (hd a).2
    rw [frameInput_sealFrame hlen, inputOf_joy rfl]
    refine congrArg (some ∘ LinkInput.joy) (PerAxis.ext_get fun a => ?_)
    refine Eq.trans ?_ (hback a)
    cases a <;> rfl
  case read =>
    obtain ⟨kind, tag, payload, hl, hlen, hx⟩ := frameInput_eq_some.1 h
    by_cases hk : kind = 1#8
    case neg =>
      rw [inputOf_request hk] at hx
      obtain ⟨i, _, hi⟩ := Option.map_eq_some_iff.1 hx
      exact nomatch hi
    subst hk
    have hsixteen := lengthPossible_one.1 (inputOf_isSome.1 (Option.isSome_of_eq_some hx))
    rw [inputOf_joy rfl] at hx
    match payload, hsixteen with
    | [a, a', b, b', c, c', d1, d1', e, e', f, f', g, g', i, i'], _ =>
      obtain ⟨d', hd, hjoy⟩ := Option.map_eq_some_iff.1 hx
      cases hjoy
      cases hd
      refine ⟨fun a => ?_, tag, ?_⟩
      · cases a <;> exact signedTwo_range _ _
      · rw [hl]
        simp only [List.flatMap_cons, List.flatMap_nil, octets_signedTwo]
        rfl

end Sys2Proof.Machine
end

section
/-! PROOFS. The arguments of a request, in their octets and back (O8). -/

namespace Sys2Proof.Machine

/-! ## One argument -/

theorem octet_nat {n : Nat} (h : fitsOctet n = true) : (BitVec.ofInt 8 (n : Int)).toNat = n := by
  have hn : n < 256 := of_decide_eq_true h
  rw [octet_toNat]
  omega

theorem octet_axes (x : AxisSet) : axes (BitVec.ofInt 8 (x.toNat : Int)).toNat = x := by
  rw [octet_nat (decide_eq_true x.isLt), axes, BitVec.ofNat_toNat, BitVec.setWidth_eq]

theorem two_octets {n : Nat} (h : fitsTwo n = true) :
    two (BitVec.ofInt 8 ((n : Int) / 256)).toNat (BitVec.ofInt 8 (n : Int)).toNat = n := by
  have hn : n < 65536 := of_decide_eq_true h
  rw [octet_toNat, octet_toNat]
  unfold two
  omega

theorem four_octets {n : Nat} (h : fitsFour n = true) :
    four (BitVec.ofInt 8 ((n : Int) / 256 / 256 / 256)).toNat (BitVec.ofInt 8 ((n : Int) / 256 / 256)).toNat
      (BitVec.ofInt 8 ((n : Int) / 256)).toNat (BitVec.ofInt 8 (n : Int)).toNat = n := by
  have hn : n < 4294967296 := of_decide_eq_true h
  rw [octet_toNat, octet_toNat, octet_toNat, octet_toNat]
  unfold four two
  omega

theorem position_octets {v : Int} (h : fitsPosition v = true) :
    signedThree (BitVec.ofInt 8 (v / 256 / 256)).toNat (BitVec.ofInt 8 (v / 256)).toNat
      (BitVec.ofInt 8 v).toNat = v := by
  obtain ⟨hlo, hhi⟩ : positionMin ≤ v ∧ v ≤ positionMax := by simpa [fitsPosition] using h
  exact signedThree_octets hlo hhi

theorem gain_octets {v : Int} (h : fitsSignedTwo v = true) :
    signedTwo (BitVec.ofInt 8 (v / 256)).toNat (BitVec.ofInt 8 v).toNat = v := by
  obtain ⟨hlo, hhi⟩ : -32768 ≤ v ∧ v ≤ 32767 := by simpa [fitsSignedTwo] using h
  exact signedTwo_octets hlo hhi

theorem bcd_octet {b : Bcd} (h : b.wf = true) :
    bcdField (BitVec.ofInt 8 (16 * (b.tens : Int) + (b.ones : Int))).toNat = b := by
  obtain ⟨htens, hones⟩ : b.tens < 16 ∧ b.ones < 16 := by simpa [Bcd.wf] using h
  have hvalue : (BitVec.ofInt 8 (16 * (b.tens : Int) + (b.ones : Int))).toNat = 16 * b.tens + b.ones := by
    rw [octet_toNat]
    omega
  have htensBack : (16 * b.tens + b.ones) / 16 = b.tens := by omega
  have honesBack : (16 * b.tens + b.ones) % 16 = b.ones := by omega
  rw [hvalue, bcdField, htensBack, honesBack]

theorem sources_octets (x : BitVec 16) : BitVec.ofNat 16
    (two (BitVec.ofInt 8 ((x.toNat : Int) / 256)).toNat (BitVec.ofInt 8 (x.toNat : Int)).toNat) = x := by
  rw [two_octets (decide_eq_true x.isLt), BitVec.ofNat_toNat, BitVec.setWidth_eq]

theorem timecode_octets {t : Timecode} (h : t.wf = true) :
    timecodeField (BitVec.ofInt 8 (16 * (t.hh.tens : Int) + (t.hh.ones : Int))).toNat
      (BitVec.ofInt 8 (16 * (t.mm.tens : Int) + (t.mm.ones : Int))).toNat
      (BitVec.ofInt 8 (16 * (t.ss.tens : Int) + (t.ss.ones : Int))).toNat
      (BitVec.ofInt 8 (16 * (t.ff.tens : Int) + (t.ff.ones : Int))).toNat = t := by
  simp only [Timecode.wf, Bool.and_eq_true] at h
  obtain ⟨⟨⟨hh, hm⟩, hs⟩, hf⟩ := h
  rw [timecodeField, bcd_octet hh, bcd_octet hm, bcd_octet hs, bcd_octet hf]

/-! ## Requests whose fields are fixed -/

/-- The kinds whose payload holds a list. -/
def holdsList : Instr → Bool
  | .storePreset .. | .appendKeyframe .. | .setZone .. | .setBankEntry .. | .setBusConfig .. => true
  | _ => false

/-- A request of fixed fields is read from its octets: each field is its own octets' value. -/
theorem requestOf_fixed {h : Header} {i : Instr} (pad : List Octet) (hh : requestHeader i = some h) (hwf : i.wf = true)
    (hfixed : holdsList i = false) : requestOf h (kindNumber i) ((argumentOctets pad i).map BitVec.toNat) = some i := by
  simp only [Instr.wf, Bool.and_eq_true] at hwf
  obtain ⟨⟨⟨hearly, hmiddle⟩, hlate⟩, -⟩ := hwf
  cases i
  case storePreset | appendKeyframe | setZone | setBankEntry | setBusConfig => exact nomatch hfixed
  case claim | release | yield | seize | withdrawWait | queryAuthority | setMode | takeLive | enable | disable |
      capture | erasePreset | queryPreset | recallCue | go | abort | speed =>
    cases hh
    simp only [Instr.wfEarly, Bool.and_eq_true] at hearly
    refine congrArg some ?_
    simp only [hearly, octet_axes, octet_nat, two_octets, timecode_octets]
  case queryQueue | queryZones | queryViews | queryCache | queryCoupling | queryTimecode | queryBus | queryFaults |
      status | releaseClear | tcRun | tcStop | busStart | busStop | saveStore | restart =>
    cases hh
    rfl
  case queryLimits | queryJoystick | queryDirectory | queryCueList | queryBlend | setReport | setProfile |
      setStaleLimit | setView | purge =>
    cases hh
    simp only [Instr.wfMiddle, Bool.and_eq_true] at hmiddle
    refine congrArg some ?_
    simp only [hmiddle, octet_axes, octet_nat, two_octets]
  case setFitted | setLimits | setCueEntry | setCoupling | setTimecode | offsetTimecode | setRate | setFaultActions |
      setFaultTimers | faultClear =>
    cases hh
    simp only [Instr.wfLate, Bool.and_eq_true] at hlate
    refine congrArg some ?_
    simp only [hlate, octet_axes, octet_nat, two_octets, four_octets, position_octets, gain_octets, timecode_octets,
      sources_octets]
  all_goals exact nomatch hh

end Sys2Proof.Machine
end

section
/-! PROOFS. Requests whose payload holds a list, in their octets and back (O8). -/

namespace Sys2Proof.Machine

/-! ## Lists of arguments -/

/-- The octets of some fields, as the numbers they are read as. -/
def fieldNats (fs : List (Nat × Int)) : List Nat := (fs.flatMap fun f => numberOctets f.1 f.2).map BitVec.toNat

theorem fieldNats_append (fs gs : List (Nat × Int)) : fieldNats (fs ++ gs) = fieldNats fs ++ fieldNats gs := by
  unfold fieldNats
  rw [List.flatMap_append, List.map_append]

theorem argumentOctets_early (pad : List Octet) {i : Instr} (hlate : lateFields i = []) :
    (argumentOctets pad i).map BitVec.toNat = fieldNats (earlyFields pad i) := by
  unfold argumentOctets fieldNats
  rw [hlate, List.append_nil]

theorem fieldNats_octets {l : List Nat} (hl : l.all fitsOctet = true) :
    fieldNats (l.map fun o : Nat => (1, (o : Int))) = l := by
  induction l with
  | nil => rfl
  | cons o l ih =>
    rw [List.all_cons, Bool.and_eq_true] at hl
    obtain ⟨ho, hl⟩ := hl
    show (BitVec.ofInt 8 (o : Int)).toNat :: fieldNats (l.map fun o : Nat => (1, (o : Int))) = _
    rw [octet_nat ho, ih hl]

theorem fieldNats_chars (l : List Octet) : fieldNats (l.map fun o => (1, (o.toNat : Int))) = l.map BitVec.toNat := by
  induction l with
  | nil => rfl
  | cons o l ih =>
    show (BitVec.ofInt 8 (o.toNat : Int)).toNat :: fieldNats (l.map fun o => (1, (o.toNat : Int))) = _
    rw [octet_nat (decide_eq_true o.isLt), ih]
    rfl

/-- The fields of some positions. -/
def positionFields (vs : List Int) : List (Nat × Int) := vs.map fun v => (3, v)

theorem positionFields_length (vs : List Int) : (fieldNats (positionFields vs)).length = 3 * vs.length := by
  induction vs with
  | nil => rfl
  | cons v vs ih =>
    show (fieldNats (positionFields vs)).length + 3 = 3 * (vs.length + 1)
    omega

theorem positionsIn_fields {vs : List Int} (h : vs.all fitsPosition = true) :
    positionsIn (fieldNats (positionFields vs)) = vs := by
  induction vs with
  | nil => rfl
  | cons v vs ih =>
    rw [List.all_cons, Bool.and_eq_true] at h
    obtain ⟨hv, hvs⟩ := h
    show signedThree _ _ _ :: positionsIn (fieldNats (positionFields vs)) = _
    rw [ih hvs]
    exact congrArg (· :: vs) (position_octets hv)

/-- The fields of some pairs of an axis and a position. -/
def pairFields (ps : List (Nat × Int)) : List (Nat × Int) := ps.flatMap fun q => [(1, (q.1 : Int)), (3, q.2)]

theorem pairFields_length (ps : List (Nat × Int)) : (fieldNats (pairFields ps)).length = 4 * ps.length := by
  induction ps with
  | nil => rfl
  | cons q ps ih =>
    show (fieldNats (pairFields ps)).length + 4 = 4 * (ps.length + 1)
    omega

theorem pairsIn_fields {ps : List (Nat × Int)} (h : (ps.all fun p => fitsOctet p.1 && fitsPosition p.2) = true) :
    pairsIn (fieldNats (pairFields ps)) = ps := by
  induction ps with
  | nil => rfl
  | cons q ps ih =>
    rw [List.all_cons, Bool.and_eq_true, Bool.and_eq_true] at h
    obtain ⟨⟨hn, hv⟩, hps⟩ := h
    show ((BitVec.ofInt 8 (q.1 : Int)).toNat, signedThree _ _ _) :: pairsIn (fieldNats (pairFields ps)) = _
    rw [ih hps, octet_nat hn]
    exact congrArg (fun v => (q.1, v) :: ps) (position_octets hv)

/-- The fields of some zone bounds. -/
def boundsFields (bs : List (Int × Int)) : List (Nat × Int) := bs.flatMap fun b => [(3, b.1), (3, b.2)]

theorem boundsFields_length (bs : List (Int × Int)) : (fieldNats (boundsFields bs)).length = 6 * bs.length := by
  induction bs with
  | nil => rfl
  | cons b bs ih =>
    show (fieldNats (boundsFields bs)).length + 6 = 6 * (bs.length + 1)
    omega

theorem boundsIn_fields {bs : List (Int × Int)} (h : (bs.all fun b => fitsPosition b.1 && fitsPosition b.2) = true) :
    boundsIn (fieldNats (boundsFields bs)) = bs := by
  induction bs with
  | nil => rfl
  | cons b bs ih =>
    rw [List.all_cons, Bool.and_eq_true, Bool.and_eq_true] at h
    obtain ⟨⟨hlo, hhi⟩, hbs⟩ := h
    show (signedThree _ _ _, signedThree _ _ _) :: boundsIn (fieldNats (boundsFields bs)) = _
    rw [ih hbs]
    exact congrArg (· :: bs) (Prod.ext (position_octets hlo) (position_octets hhi))

theorem fieldNats_closing {d p g : Nat} (hp : fitsOctet p = true) (hg : fitsOctet g = true) :
    fieldNats (closingFields d p g) =
      [(BitVec.ofInt 8 ((d : Int) / 256)).toNat, (BitVec.ofInt 8 (d : Int)).toNat, p, g] := by
  show [_, _, (BitVec.ofInt 8 (p : Int)).toNat, (BitVec.ofInt 8 (g : Int)).toNat] = _
  rw [octet_nat hp, octet_nat hg]

/-! ## Keyframes -/

theorem fieldNats_keyframe {k : KeyframeArg} (hwf : k.wf = true) : fieldNats (keyframeFields k) =
    fieldNats (positionFields k.targets) ++ [(BitVec.ofInt 8 ((k.duration : Int) / 256)).toNat,
      (BitVec.ofInt 8 (k.duration : Int)).toNat, k.shape, k.gate] := by
  simp only [KeyframeArg.wf, Bool.and_eq_true] at hwf
  obtain ⟨⟨_, hshape⟩, hgate⟩ := hwf
  have happend := fieldNats_append (positionFields k.targets) (closingFields k.duration k.shape k.gate)
  rwa [fieldNats_closing hshape hgate] at happend

theorem keyframeIn_fields {k : KeyframeArg} (hwf : k.wf = true) :
    keyframeIn k.targets.length (fieldNats (keyframeFields k)) = k := by
  have hwf' := hwf
  simp only [KeyframeArg.wf, Bool.and_eq_true] at hwf'
  obtain ⟨⟨⟨htargets, hduration⟩, _⟩, _⟩ := hwf'
  unfold keyframeIn
  rw [fieldNats_keyframe hwf, ← positionFields_length, List.drop_left, List.take_left]
  dsimp only
  rw [positionsIn_fields htargets, two_octets hduration]

theorem keyframeFields_length {k : KeyframeArg} (hwf : k.wf = true) :
    (fieldNats (keyframeFields k)).length = 3 * k.targets.length + 4 := by
  rw [fieldNats_keyframe hwf, List.length_append, positionFields_length]
  rfl

section Keyframes
variable {n : Nat} {ks : List KeyframeArg} (hwf : ks.all KeyframeArg.wf = true) (hn : ∀ k ∈ ks, k.targets.length = n)
include hwf hn

theorem keyframesFields_length : (fieldNats (ks.flatMap keyframeFields)).length = (3 * n + 4) * ks.length := by
  induction ks with
  | nil => rfl
  | cons k ks ih =>
    rw [List.all_cons, Bool.and_eq_true] at hwf
    obtain ⟨hk, hks⟩ := hwf
    have htail := ih hks fun k hk => hn k (List.mem_cons_of_mem _ hk)
    rw [List.flatMap_cons, fieldNats_append, List.length_append, keyframeFields_length hk,
      hn k List.mem_cons_self, htail, List.length_cons, Nat.mul_succ, Nat.add_comm]

theorem keyframesIn_fields {places : Nat} (hplaces : ks.length ≤ places) :
    keyframesIn n places (fieldNats (ks.flatMap keyframeFields)) = ks := by
  induction ks generalizing places with
  | nil => cases places <;> rfl
  | cons k ks ih =>
    rw [List.all_cons, Bool.and_eq_true] at hwf
    obtain ⟨hk, hks⟩ := hwf
    have htargets := hn k List.mem_cons_self
    have hlength := keyframeFields_length hk
    rw [htargets] at hlength
    rw [List.flatMap_cons, fieldNats_append]
    cases places with
    | zero => exact absurd hplaces (by rw [List.length_cons]; omega)
    | succ places =>
      have hne : fieldNats (keyframeFields k) ++ fieldNats (ks.flatMap keyframeFields) ≠ [] := fun he => by
        rw [(List.append_eq_nil_iff.1 he).1] at hlength
        exact nomatch hlength
      rw [keyframesIn, if_neg hne, ← hlength, List.take_left, List.drop_left, ← htargets, keyframeIn_fields hk,
        htargets, ih hks (fun k hk => hn k (List.mem_cons_of_mem _ hk)) (Nat.le_of_succ_le_succ hplaces)]

end Keyframes

/-! ## The requests -/

theorem requestOf_setBusConfig {h : Header} {r t : Nat} {sl : List Nat} (pad : List Octet)
    (hwf : (Instr.setBusConfig h r t sl).wfLate = true) :
    requestOf h 52 ((argumentOctets pad (.setBusConfig h r t sl)).map BitVec.toNat) = some (.setBusConfig h r t sl) := by
  simp only [Instr.wfLate, Bool.and_eq_true, decide_eq_true_eq] at hwf
  obtain ⟨⟨⟨hr, ht⟩, hlen⟩, hsl⟩ := hwf
  show requestOf h 52 ((BitVec.ofInt 8 (r : Int)).toNat :: (BitVec.ofInt 8 ((t : Int) / 256)).toNat ::
    (BitVec.ofInt 8 (t : Int)).toNat :: fieldNats (sl.map fun o : Nat => (1, (o : Int)))) = _
  rw [octet_nat hr, fieldNats_octets hsl]
  refine (if_pos hlen).trans ?_
  rw [two_octets ht]

theorem requestOf_setBankEntry {h : Header} {d b k l : Nat} {fs : List Nat} (pad : List Octet)
    (hwf : (Instr.setBankEntry h d b k l fs).wfLate = true) :
    requestOf h 44 ((argumentOctets pad (.setBankEntry h d b k l fs)).map BitVec.toNat) =
      some (.setBankEntry h d b k l fs) := by
  simp only [Instr.wfLate, Bool.and_eq_true, decide_eq_true_eq] at hwf
  obtain ⟨⟨⟨⟨⟨hd, hb⟩, hk⟩, hl⟩, hlen⟩, hfs⟩ := hwf
  show requestOf h 44 ((BitVec.ofInt 8 (d : Int)).toNat :: (BitVec.ofInt 8 (b : Int)).toNat ::
    (BitVec.ofInt 8 (k : Int)).toNat :: (BitVec.ofInt 8 (l : Int)).toNat ::
    fieldNats (fs.map fun o : Nat => (1, (o : Int)))) = _
  rw [octet_nat hd, octet_nat hb, octet_nat hk, octet_nat hl, fieldNats_octets hfs]
  exact if_pos hlen

theorem requestOf_setZone {h : Header} {z e : Nat} {x : AxisSet} {bs : List (Int × Int)} (pad : List Octet)
    (hwf : (Instr.setZone h z e x bs).wfLate = true) :
    requestOf h 43 ((argumentOctets pad (.setZone h z e x bs)).map BitVec.toNat) = some (.setZone h z e x bs) := by
  simp only [Instr.wfLate, Bool.and_eq_true, decide_eq_true_eq] at hwf
  obtain ⟨⟨⟨hz, he⟩, hlen⟩, hbs⟩ := hwf
  have hsix := boundsFields_length bs
  show (if (fieldNats (boundsFields bs)).length % 6 = 0 ∧ (fieldNats (boundsFields bs)).length ≤ 48 then
    some (Instr.setZone h (BitVec.ofInt 8 (z : Int)).toNat (BitVec.ofInt 8 (e : Int)).toNat
      (axes (BitVec.ofInt 8 (x.toNat : Int)).toNat) (boundsIn (fieldNats (boundsFields bs)))) else none) = _
  rw [if_pos ⟨by omega, by omega⟩, octet_nat hz, octet_nat he, octet_axes, boundsIn_fields hbs]

theorem appendedIn_fields {k : AppendArg} (hwf : k.wf = true) (hread : k ≠ .unreadable) :
    appendedIn (fieldNats (appendedFields k)) = some k := by
  cases k with
  | unreadable => exact absurd rfl hread
  | capture d p g =>
    simp only [AppendArg.wf, Bool.and_eq_true] at hwf
    obtain ⟨⟨hd, hp⟩, hg⟩ := hwf
    refine congrArg some ?_
    simp only [hd, hp, hg, two_octets, octet_nat]
    rfl
  | explicit ps d p g =>
    simp only [AppendArg.wf, Bool.and_eq_true, decide_eq_true_eq] at hwf
    obtain ⟨⟨⟨⟨hps, hd⟩, hp⟩, hg⟩, hlen⟩ := hwf
    have hcount : fitsOctet ps.length = true := decide_eq_true (by omega)
    have hfour := pairFields_length ps
    show appendedIn (0 :: (BitVec.ofInt 8 (ps.length : Int)).toNat ::
      fieldNats (pairFields ps ++ closingFields d p g)) = _
    rw [octet_nat hcount, fieldNats_append, fieldNats_closing hp hg, appendedIn_long, hfour,
      if_neg (by omega), if_pos ⟨rfl, rfl⟩, pairsIn_fields hps, two_octets hd]

theorem requestOf_appendKeyframe {h : Header} {b q : Nat} {k : AppendArg} (pad : List Octet)
    (hwf : (Instr.appendKeyframe h b q k).wfEarly = true) (hread : k ≠ .unreadable) :
    requestOf h 14 ((argumentOctets pad (.appendKeyframe h b q k)).map BitVec.toNat) =
      some (.appendKeyframe h b q k) := by
  simp only [Instr.wfEarly, Bool.and_eq_true] at hwf
  obtain ⟨⟨hb, hq⟩, hk⟩ := hwf
  rw [argumentOctets_early pad rfl]
  show (appendedIn (fieldNats (appendedFields k))).map (Instr.appendKeyframe h (BitVec.ofInt 8 (b : Int)).toNat
    (BitVec.ofInt 8 (q : Int)).toNat) = _
  rw [appendedIn_fields hk hread, octet_nat hb, octet_nat hq]
  rfl

/-! ### STORE PRESET -/

theorem labelIn_chars {l pad : List Octet} (hl : l.length ≤ 12) :
    labelIn l.length (((l ++ pad).take 12).map BitVec.toNat) = l := by
  unfold labelIn
  rw [if_pos hl, ← List.map_take, List.take_take, Nat.min_eq_left hl, List.take_left, List.map_map]
  refine (List.map_congr_left fun o _ => ?_).trans (List.map_id l)
  show BitVec.ofNat 8 o.toNat = o
  rw [BitVec.ofNat_toNat, BitVec.setWidth_eq]

theorem storeRequest_eq (h : Header) (b q x g n : Nat) {chars rest : List Nat} (hchars : chars.length = 12) :
    storeRequest h (b :: q :: x :: g :: n :: (chars ++ rest)) =
      some (.storePreset h b q (axes x) g (labelIn n chars)
        (keyframesIn (axisCount (axes x)) (12 + rest.length) rest)) := by
  have hlen : (chars ++ rest).length = 12 + rest.length := by rw [List.length_append, hchars]
  show (if (chars ++ rest).length < 12 then none else some _) = _
  rw [if_neg (by omega), hlen, ← hchars, List.take_left, List.drop_left]

theorem requestOf_storePreset {h : Header} {b q g : Nat} {x : AxisSet} {l pad : List Octet} {ks : List KeyframeArg}
    (hwf : (Instr.storePreset h b q x g l ks).wfEarly = true) (hl : l.length ≤ 12)
    (hks : ∀ k ∈ ks, k.targets.length = axisCount x) (hpad : 12 ≤ pad.length) :
    requestOf h 12 ((argumentOctets pad (.storePreset h b q x g l ks)).map BitVec.toNat) =
      some (.storePreset h b q x g l ks) := by
  simp only [Instr.wfEarly, Bool.and_eq_true, decide_eq_true_eq] at hwf
  obtain ⟨⟨⟨⟨hb, hq⟩, hg⟩, _⟩, hkwf⟩ := hwf
  have hcount : fitsOctet l.length = true := decide_eq_true (by omega)
  have hchars : (((l ++ pad).take 12).map BitVec.toNat).length = 12 := by
    rw [List.length_map, List.length_take, List.length_append]
    omega
  have hplaces := keyframesFields_length hkwf hks
  rw [argumentOctets_early pad rfl]
  show storeRequest h ((BitVec.ofInt 8 (b : Int)).toNat :: (BitVec.ofInt 8 (q : Int)).toNat ::
    (BitVec.ofInt 8 (x.toNat : Int)).toNat :: (BitVec.ofInt 8 (g : Int)).toNat ::
    (BitVec.ofInt 8 (l.length : Int)).toNat ::
    fieldNats ((((l ++ pad).take 12).map fun o => (1, (o.toNat : Int))) ++ ks.flatMap keyframeFields)) = _
  rw [fieldNats_append, fieldNats_chars, storeRequest_eq h _ _ _ _ _ hchars, octet_nat hb, octet_nat hq, octet_nat hg,
    octet_nat hcount, octet_axes, labelIn_chars hl, keyframesIn_fields hkwf hks]
  rw [hplaces]
  exact Nat.le_trans (Nat.le_mul_of_pos_left _ (Nat.succ_pos _)) (Nat.le_add_left _ _)

/-- A well-formed request whose lists agree with their counts is read from its octets. -/
theorem requestOf_argumentOctets {h : Header} {i : Instr} {pad : List Octet} (hh : requestHeader i = some h)
    (hwf : i.wf = true) (hlists : listsAgree i) (hpad : 12 ≤ pad.length) :
    requestOf h (kindNumber i) ((argumentOctets pad i).map BitVec.toNat) = some i := by
  cases hl : holdsList i
  case false => exact requestOf_fixed pad hh hwf hl
  case true =>
    simp only [Instr.wf, Bool.and_eq_true] at hwf
    obtain ⟨⟨⟨hearly, _⟩, hlate⟩, -⟩ := hwf
    cases i
    case storePreset =>
      cases hh
      exact requestOf_storePreset hearly hlists.1 hlists.2 hpad
    case appendKeyframe =>
      cases hh
      exact requestOf_appendKeyframe pad hearly hlists
    case setZone =>
      cases hh
      exact requestOf_setZone pad hlate
    case setBankEntry =>
      cases hh
      exact requestOf_setBankEntry pad hlate
    case setBusConfig =>
      cases hh
      exact requestOf_setBusConfig pad hlate
    all_goals exact nomatch hl

end Sys2Proof.Machine
end

section
/-! PROOFS. Lists that disagree with their counts, and O8. -/

namespace Sys2Proof.Machine

theorem axes_toNat (x : Octet) : axes x.toNat = x := by
  rw [axes, BitVec.ofNat_toNat, BitVec.setWidth_eq]

/-! ## STORE PRESET -/

theorem labelIn_long {n : Nat} {chars : List Nat} (hn : 12 < n) (hchars : chars.length = 12) :
    12 < (labelIn n chars).length := by
  unfold labelIn
  rw [if_neg (by omega), List.length_map, List.length_append, hchars]
  decide

theorem keyframeIn_short {n : Nat} {l : List Nat} (hl : l.length < 3 * n + 4) : (keyframeIn n l).targets = [] := by
  unfold keyframeIn
  split
  case h_1 hdrop =>
    have hlen := congrArg List.length hdrop
    rw [List.length_drop] at hlen
    simp only [List.length_cons, List.length_nil] at hlen
    omega
  case h_2 => rfl

/-- Octets that are no whole number of keyframes give one without targets. -/
theorem keyframesIn_broken {n places : Nat} {l : List Nat} (hplaces : l.length ≤ places)
    (hbroken : l.length % (3 * n + 4) ≠ 0) : ∃ k ∈ keyframesIn n places l, k.targets = [] := by
  induction places generalizing l with
  | zero => exact absurd (by rw [Nat.le_zero.1 hplaces, Nat.zero_mod]) hbroken
  | succ places ih =>
    have hne : l ≠ [] := fun he => by
      rw [he] at hbroken
      exact hbroken (Nat.zero_mod _)
    rw [keyframesIn, if_neg hne]
    by_cases hshort : l.length < 3 * n + 4
    · refine ⟨_, List.mem_cons_self, keyframeIn_short ?_⟩
      rw [List.length_take]
      omega
    · have hdrop : (l.drop (3 * n + 4)).length = l.length - (3 * n + 4) := List.length_drop
      have hmod : (l.drop (3 * n + 4)).length % (3 * n + 4) ≠ 0 := by
        rwa [hdrop, ← Nat.mod_eq_sub_mod (Nat.le_of_not_lt hshort)]
      obtain ⟨k, hk, htargets⟩ := ih (by omega) hmod
      exact ⟨k, List.mem_cons_of_mem _ hk, htargets⟩

/-- A STORE PRESET frame, read. -/
theorem frameInput_storePreset {m : Master} {tag b q x g n : Octet} {rest : List Octet} (hmin : 12 ≤ rest.length)
    (hmax : rest.length ≤ 115) :
    frameInput m (sealFrame { kind := 12#8, tag := tag, payload := b :: q :: x :: g :: n :: rest }) =
      some (.request (.storePreset { elapsed := 0, link := m, tag := tag } b.toNat q.toNat x g.toNat
        (labelIn n.toNat ((rest.take 12).map BitVec.toNat))
        (keyframesIn (axisCount x) rest.length ((rest.drop 12).map BitVec.toNat)))) := by
  have hlen : (b :: q :: x :: g :: n :: rest).length ≤ 120 := by
    simp only [List.length_cons]
    omega
  have hchars : ((rest.take 12).map BitVec.toNat).length = 12 := by
    rw [List.length_map, List.length_take]
    omega
  have hparts : rest.map BitVec.toNat = (rest.take 12).map BitVec.toNat ++ (rest.drop 12).map BitVec.toNat := by
    rw [← List.map_append, List.take_append_drop]
  have hplaces : 12 + ((rest.drop 12).map BitVec.toNat).length = rest.length := by
    rw [List.length_map, List.length_drop]
    omega
  rw [frameInput_sealFrame hlen, inputOf_request (by decide : 12#8 ≠ 1#8)]
  show (storeRequest _ (b.toNat :: q.toNat :: x.toNat :: g.toNat :: n.toNat :: rest.map BitVec.toNat)).map _ = _
  rw [hparts, storeRequest_eq _ _ _ _ _ _ hchars, hplaces, axes_toNat]
  rfl

/-! ## APPEND KEYFRAME -/

theorem pairs_octets {n : Nat} {ts : List Octet} (hts : ts.length = 4 * n) :
    let ps := pairsIn (ts.map BitVec.toNat)
    (pairFields ps).flatMap (fun f => numberOctets f.1 f.2) = ts ∧ ps.length = n ∧
      (ps.all fun p => fitsOctet p.1 && fitsPosition p.2) = true := by
  induction n generalizing ts with
  | zero =>
    rw [List.length_eq_zero_iff.1 hts]
    exact ⟨rfl, rfl, rfl⟩
  | succ n ih =>
    match ts, hts with
    | x :: a :: b :: c :: ts, hts =>
      have hlen : ts.length = 4 * n := by
        simp only [List.length_cons] at hts
        omega
      obtain ⟨hback, hcount, hfits⟩ := ih hlen
      have hposition : fitsPosition (signedThree a.toNat b.toNat c.toNat) = true := by
        have hcases := signedThree_cases a.isLt b.isLt c.isLt
        have hb := b.isLt
        have hc := c.isLt
        have ha := a.isLt
        unfold fitsPosition positionMin positionMax
        rw [Bool.and_eq_true, decide_eq_true_eq, decide_eq_true_eq]
        omega
      have hoctet : fitsOctet x.toNat = true := decide_eq_true x.isLt
      refine ⟨?_, congrArg (· + 1) hcount, ?_⟩
      · show numberOctets 1 (x.toNat : Int) ++ (numberOctets 3 (signedThree a.toNat b.toNat c.toNat) ++
          (pairFields (pairsIn (ts.map BitVec.toNat))).flatMap fun f => numberOctets f.1 f.2) = _
        rw [octets_one, octets_signedThree, hback]
        rfl
      · show ((fitsOctet x.toNat && fitsPosition _) && _) = true
        rw [hoctet, hposition, Bool.and_eq_true]
        exact ⟨rfl, hfits⟩

theorem fitsTwo_two (a b : Octet) : fitsTwo (two a.toNat b.toNat) = true := by
  have ha := a.isLt
  have hb := b.isLt
  refine decide_eq_true ?_
  unfold two
  omega

theorem closing_octets (d d' p g : Octet) :
    (closingFields (two d.toNat d'.toNat) p.toNat g.toNat).flatMap (fun f => numberOctets f.1 f.2) = [d, d', p, g] := by
  show numberOctets 2 _ ++ (numberOctets 1 _ ++ (numberOctets 1 _ ++ [])) = _
  rw [octets_two, octets_one, octets_one]
  rfl

/-- An appended keyframe that is read is well formed, and its octets are those it is read from. -/
theorem octets_of_appendedIn {rest : List Octet} {k : AppendArg} (hk : appendedIn (rest.map BitVec.toNat) = some k)
    (hlen : rest.length ≤ 118) (hread : k ≠ .unreadable) :
    k.wf = true ∧ rest = (appendedFields k).flatMap fun f => numberOctets f.1 f.2 := by
  have hpossible := appendedIn_isSome.1 (Option.isSome_of_eq_some hk)
  rw [List.length_map] at hpossible
  match rest, hpossible with
  | f :: n :: rest, hpossible =>
    simp only [List.length_cons] at hlen hpossible
    by_cases h3 : rest.length = 3
    · obtain ⟨d', p, g, rfl⟩ := exists_three h3
      have hform : (if f.toNat = 1 then AppendArg.capture (two n.toNat d'.toNat) p.toNat g.toNat else .unreadable) = k :=
        Option.some.inj hk
      by_cases hf : f.toNat = 1
      · rw [if_pos hf] at hform
        subst hform
        refine ⟨?_, ?_⟩
        · show (fitsTwo _ && fitsOctet _ && fitsOctet _) = true
          rw [fitsTwo_two, Bool.and_eq_true, Bool.true_and]
          exact ⟨decide_eq_true p.isLt, decide_eq_true g.isLt⟩
        · show _ = [1#8] ++ (closingFields _ _ _).flatMap _
          rw [closing_octets, show f = 1#8 from BitVec.eq_of_toNat_eq hf]
          rfl
      · rw [if_neg hf] at hform
        exact absurd hform.symm hread
    · obtain ⟨ts, d, d', p, g, rfl⟩ := exists_lastFour (l := rest) (by omega)
      have hmap : (f :: n :: (ts ++ [d, d', p, g])).map BitVec.toNat =
          f.toNat :: n.toNat :: (ts.map BitVec.toNat ++ [d.toNat, d'.toNat, p.toNat, g.toNat]) := by
        rw [List.map_cons, List.map_cons, List.map_append]
        rfl
      rw [List.length_append] at hlen hpossible
      simp only [List.length_cons, List.length_nil] at hlen hpossible
      rw [hmap, appendedIn_long, List.length_map, if_neg (by omega)] at hk
      by_cases hform : f.toNat = 0 ∧ ts.length = 4 * n.toNat
      · rw [if_pos hform] at hk
        obtain ⟨hf, hts⟩ := hform
        obtain ⟨hback, hcount, hfits⟩ := pairs_octets hts
        cases hk
        refine ⟨?_, ?_⟩
        · show (_ && fitsTwo _ && fitsOctet _ && fitsOctet _ && decide (_ ≤ 28)) = true
          rw [hfits, fitsTwo_two, hcount]
          simp only [Bool.and_eq_true, Bool.true_and]
          exact ⟨⟨decide_eq_true p.isLt, decide_eq_true g.isLt⟩, decide_eq_true (by omega)⟩
        · show _ = [0#8] ++ (numberOctets 1 ((pairsIn (ts.map BitVec.toNat)).length : Int) ++
            (pairFields (pairsIn (ts.map BitVec.toNat)) ++ closingFields _ _ _).flatMap _)
          rw [List.flatMap_append, hback, closing_octets, hcount, octets_one,
            show f = 0#8 from BitVec.eq_of_toNat_eq hf]
          rfl
      · rw [if_neg hform] at hk
        exact absurd (Option.some.inj hk).symm hread

/-- An APPEND KEYFRAME frame, read. -/
theorem frameInput_appendKeyframe {m : Master} {tag b q : Octet} {rest : List Octet} (hmax : rest.length ≤ 118) :
    frameInput m (sealFrame { kind := 14#8, tag := tag, payload := b :: q :: rest }) =
      ((appendedIn (rest.map BitVec.toNat)).map
        (Instr.appendKeyframe { elapsed := 0, link := m, tag := tag } b.toNat q.toNat)).map .request := by
  have hlen : (b :: q :: rest).length ≤ 120 := by
    simp only [List.length_cons]
    omega
  rw [frameInput_sealFrame hlen, inputOf_request (by decide : 14#8 ≠ 1#8)]
  rfl

/-! ## O8 -/

theorem requestFrames_hold : requestFramesCarryTheArguments := by
  intro m tag i pad hh hwf hlists hpad hlen
  have hread := requestOf_argumentOctets hh hwf hlists hpad
  have hknown := requestOf_some hread
  have hsmall := hknown.most
  have hleast := hknown.least
  have hkind : (BitVec.ofNat 8 (kindNumber i)).toNat = kindNumber i := by
    rw [BitVec.toNat_ofNat]
    omega
  have hone : BitVec.ofNat 8 (kindNumber i) ≠ 1#8 := fun he => by
    have he := congrArg BitVec.toNat he
    rw [hkind] at he
    have hliteral : (1#8).toNat = 1 := rfl
    omega
  rw [frameInput_sealFrame hlen, inputOf_request hone]
  dsimp only
  rw [hkind, hread]
  rfl

theorem disagreeingLists_hold : disagreeingListsAreTaken := by
  refine fun m tag b q => ⟨fun x g n rest hmin hmax => ⟨_, _, frameInput_storePreset hmin hmax, fun hn => ?label,
    fun hbroken => ?keyframes⟩, fun rest hmax hpossible hnone => ?append⟩
  case label =>
    refine labelIn_long hn ?_
    rw [List.length_map, List.length_take]
    omega
  case keyframes =>
    refine keyframesIn_broken ?_ ?_
    · rw [List.length_map, List.length_drop]
      omega
    · rwa [List.length_map, List.length_drop]
  case append =>
    have hlen : rest.length + 2 = 7 ∨ (8 ≤ rest.length + 2 ∧ (rest.length + 2) % 4 = 0) := hpossible
    obtain ⟨k, hk⟩ := Option.isSome_iff_exists.1
      (appendedIn_isSome.2 (by rw [List.length_map]; omega) : (appendedIn (rest.map BitVec.toNat)).isSome = true)
    rw [frameInput_appendKeyframe hmax, hk]
    by_cases hread : k = .unreadable
    · rw [hread]
      rfl
    · obtain ⟨hwf, hback⟩ := octets_of_appendedIn hk hmax hread
      exact absurd hback (hnone k hwf hread)

/-- Settles O8: a frame passes exactly the stated checks, and what it brings is what its octets spell. -/
theorem goodFramesPassEveryCheck : Obligations.GoodFramesPassEveryCheck :=
  ⟨escapesAreRemoved_holds, goodFrames_hold, joyFrames_hold, requestFrames_hold, disagreeingLists_hold⟩

end Sys2Proof.Machine
end
